-- ==== Sys2Proof/Word.lean ====
section
/-! DEFINITION. The words of the block: bytes, nibbles, cable numbers, counters (spec R6, R7). -/

namespace Sys2Proof

/-- A byte: 8 bits, unsigned (R7). -/
abbrev Byte := BitVec 8

/-- Half a byte: a CIN or the low half of a status byte (R7, R54). -/
abbrev Nibble := BitVec 4

/-- A cable number, 0 to 15; 4 bits wide, so every value is a valid index (R33, R55). -/
abbrev Cable := BitVec 4

/-- A diagnostic counter of `CNT_W` = 32 bits (R6, R27). -/
abbrev Counter := BitVec 32

end Sys2Proof
end

