-- ==== Sys2Proof/Config.lean ====
section
/-! DEFINITION. The parameters of the block (spec R6) and the free values of the model. -/

namespace Sys2Proof

/-- `SYSEX_CAPACITY`: bytes in one `SysexBuffer` (R6, R19). -/
def Config.sysexCapacity : Nat := 2048

/-- `CMD_MAX_PAYLOAD`: the largest payload of one frame (R6, R93). -/
def Config.cmdMaxPayload : Nat := 255

/-- `CONFIG_DESC_MAX_PAYLOAD`: the bound on the payload of headers 0x4A, 0x4C, 0x4E (R6). -/
def Config.configDescMaxPayload : Nat := 200

/-- What the `OPEN` parameter `TXQ_CAPACITY` has above its least value 257 (R6). No body: every natural number. -/
opaque Config.txqExtra : Nat

/-- `TXQ_CAPACITY`: the byte capacity of the outbound queue, `OPEN`, at least 257 (R6, R28). -/
def Config.txqCapacity : Nat := Config.txqExtra + 257

/-- Whether the outbound queue may hold `n` bytes in all: `n <= TXQ_CAPACITY` (R173). A total of at most 257 is
admitted without a look at the open capacity, which R6 makes at least 257; `Config.txqAdmits_iff` says the two agree. -/
def Config.txqAdmits (n : Nat) : Bool := decide (n ≤ 257) || decide (n ≤ Config.txqCapacity)

/-- The 18 assigned command headers (R94 to R112). -/
def Config.assignedHeaders : List Byte :=
  [0x40, 0x41, 0x42, 0x43, 0x44, 0x45, 0x46, 0x47, 0x48, 0x49, 0x4A, 0x4B, 0x4C, 0x4D, 0x4E, 0x50, 0x51, 0x52]

/-- The byte from which the `OPEN` parameter `HDR_MIDI_DATA` is taken (R6, R115). No body: every byte. -/
opaque Config.hdrMidiDataChoice : Byte

/-- `HDR_MIDI_DATA`: the header of a frame of forwarded MIDI bytes, `OPEN`, any byte that is not one of the 18
assigned headers (R6, R115). Every unassigned byte is a possible value of it. -/
def Config.hdrMidiData : Byte :=
  if Config.hdrMidiDataChoice ∈ Config.assignedHeaders then 0x00 else Config.hdrMidiDataChoice

/-- FREE VALUE (DESIGN CHOICE, notes/assumptions/6.md). The slot, 0 to 2047, in which an EOX lands when a message in
progress already has `length == 2048`: a state of the declared types that no run reaches (R22 (b)) and for which R151
gives no slot. Applied to the model's draw counter. -/
opaque Config.eoxOverrunSlot : Nat → BitVec 11

/-- FREE VALUE (DESIGN CHOICE, notes/assumptions/7.md). The value of `rx.count` after a payload byte that arrives with
`rx.count == 255`: a state of the declared types that no run reaches (R179) and for which no rule gives the next count.
Applied to the model's draw counter. -/
opaque Config.rxCountOverrun : Nat → Byte

end Sys2Proof
end

