-- ==== Sys2Proof/Syntax.lean ====
section
/-! DEFINITION. What the environment may ask of the block: one constructor of `Instr` for each row of
spec/opcode_table.json, and the requests (a format of R53 and its bytes) that instructions are decoded from. -/

namespace Sys2Proof

/-- A USB-MIDI event packet, an ordered sequence of 4 bytes: `b0` the cable and CIN byte, `b1` to `b3` the document's
data0 to data2 (R39, R54). -/
structure Packet where
  b0 : Byte
  b1 : Byte
  b2 : Byte
  b3 : Byte
deriving DecidableEq, Repr

/-- The two operations that take a whole packet as their input (R53). -/
inductive PacketOp where
  | unpack    -- `PC.UNPACK`
  | rxPacket  -- `PC.RX_PACKET`
deriving DecidableEq, Repr

/-- The two operations that take one stream byte for a cable as their input (R53). -/
inductive ByteOp where
  | feed     -- `PC.FEED`
  | append1  -- `SX.APPEND1`
deriving DecidableEq, Repr

/-- One constructor for each row of the opcode table. The `OPSEL` rows are the eleven operations of R116 with their
inputs. A `USBMIDI_PKT` row is a packet with that row's CIN given to one of the operations that take a packet; a
`MIDI_BYTE` row is a stream byte of that row's class given for a cable to one of the operations that take a byte; a
`CMD_FRAME` row is a frame with that row's header given to the operation that takes a frame, `CF.WRITE_CMD`
(notes/assumptions/4.md, 5.md, 9.md). -/
inductive Instr where
  /-- `RESET` (R201). -/
  | reset
  /-- `PC.FEED` (R121). -/
  | pcFeed (cable : Cable) (byte : Byte)
  /-- `PC.UNPACK` (R141). -/
  | pcUnpack (packet : Packet)
  /-- `PC.RX_PACKET` (R163). -/
  | pcRxPacket (packet : Packet)
  /-- `SX.APPEND1` (R148). -/
  | sxAppend1 (cable : Cable) (byte : Byte)
  /-- `SX.APPEND` (R156). -/
  | sxAppend (cable : Cable) (bytes : List Byte)
  /-- `SX.SCAN_ABORT` (R157). -/
  | sxScanAbort (cable : Cable) (bytes : List Byte)
  /-- `SX.RESET` (R158). -/
  | sxReset (cable : Cable)
  /-- `CF.WRITE_CMD` (R173). -/
  | cfWriteCmd (header : Byte) (payload : List Byte)
  /-- `CF.DRAIN` (R175). -/
  | cfDrain (k : Nat)
  /-- `CF.RX_BYTE` (R176). -/
  | cfRxByte (byte : Byte)
  /-- `CIN_RESERVED_0`, CIN 0x0 (R57). -/
  | cinReserved0 (op : PacketOp) (cn : Cable) (d0 d1 d2 : Byte)
  /-- `CIN_RESERVED_1`, CIN 0x1 (R58). -/
  | cinReserved1 (op : PacketOp) (cn : Cable) (d0 d1 d2 : Byte)
  /-- `CIN_SYSCOM_2`, CIN 0x2 (R59). -/
  | cinSyscom2 (op : PacketOp) (cn : Cable) (d0 d1 d2 : Byte)
  /-- `CIN_SYSCOM_3`, CIN 0x3 (R60). -/
  | cinSyscom3 (op : PacketOp) (cn : Cable) (d0 d1 d2 : Byte)
  /-- `CIN_SYSEX_START`, CIN 0x4 (R61). -/
  | cinSysexStart (op : PacketOp) (cn : Cable) (d0 d1 d2 : Byte)
  /-- `CIN_SYSEX_END_1`, CIN 0x5 (R62). -/
  | cinSysexEnd1 (op : PacketOp) (cn : Cable) (d0 d1 d2 : Byte)
  /-- `CIN_SYSEX_END_2`, CIN 0x6 (R63). -/
  | cinSysexEnd2 (op : PacketOp) (cn : Cable) (d0 d1 d2 : Byte)
  /-- `CIN_SYSEX_END_3`, CIN 0x7 (R64). -/
  | cinSysexEnd3 (op : PacketOp) (cn : Cable) (d0 d1 d2 : Byte)
  /-- `CIN_NOTE_OFF`, CIN 0x8 (R65). -/
  | cinNoteOff (op : PacketOp) (cn : Cable) (d0 d1 d2 : Byte)
  /-- `CIN_NOTE_ON`, CIN 0x9 (R66). -/
  | cinNoteOn (op : PacketOp) (cn : Cable) (d0 d1 d2 : Byte)
  /-- `CIN_POLY_PRESSURE`, CIN 0xA (R67). -/
  | cinPolyPressure (op : PacketOp) (cn : Cable) (d0 d1 d2 : Byte)
  /-- `CIN_CONTROL_CHANGE`, CIN 0xB (R68). -/
  | cinControlChange (op : PacketOp) (cn : Cable) (d0 d1 d2 : Byte)
  /-- `CIN_PROGRAM_CHANGE`, CIN 0xC (R69). -/
  | cinProgramChange (op : PacketOp) (cn : Cable) (d0 d1 d2 : Byte)
  /-- `CIN_CHANNEL_PRESSURE`, CIN 0xD (R70). -/
  | cinChannelPressure (op : PacketOp) (cn : Cable) (d0 d1 d2 : Byte)
  /-- `CIN_PITCH_BEND`, CIN 0xE (R71). -/
  | cinPitchBend (op : PacketOp) (cn : Cable) (d0 d1 d2 : Byte)
  /-- `CIN_SINGLE_BYTE`, CIN 0xF (R72). -/
  | cinSingleByte (op : PacketOp) (cn : Cable) (d0 d1 d2 : Byte)
  /-- `DATA`, `0vvvvvvv` (R74). -/
  | data (op : ByteOp) (cable : Cable) (v : BitVec 7)
  /-- `ST_NOTE_OFF`, `1000nnnn` (R75). -/
  | stNoteOff (op : ByteOp) (cable : Cable) (n : Nibble)
  /-- `ST_NOTE_ON`, `1001nnnn` (R76). -/
  | stNoteOn (op : ByteOp) (cable : Cable) (n : Nibble)
  /-- `ST_POLY_PRESSURE`, `1010nnnn` (R77). -/
  | stPolyPressure (op : ByteOp) (cable : Cable) (n : Nibble)
  /-- `ST_CONTROL_CHANGE`, `1011nnnn` (R78). -/
  | stControlChange (op : ByteOp) (cable : Cable) (n : Nibble)
  /-- `ST_PROGRAM_CHANGE`, `1100nnnn` (R79). -/
  | stProgramChange (op : ByteOp) (cable : Cable) (n : Nibble)
  /-- `ST_CHANNEL_PRESSURE`, `1101nnnn` (R80). -/
  | stChannelPressure (op : ByteOp) (cable : Cable) (n : Nibble)
  /-- `ST_PITCH_BEND`, `1110nnnn` (R81). -/
  | stPitchBend (op : ByteOp) (cable : Cable) (n : Nibble)
  /-- `ST_SYSEX_START`, `11110000` (R82). -/
  | stSysexStart (op : ByteOp) (cable : Cable)
  /-- `ST_SYSCOM_F1`, `11110001` (R83). -/
  | stSyscomF1 (op : ByteOp) (cable : Cable)
  /-- `ST_SYSCOM_F2`, `11110010` (R84). -/
  | stSyscomF2 (op : ByteOp) (cable : Cable)
  /-- `ST_SYSCOM_F3`, `11110011` (R85). -/
  | stSyscomF3 (op : ByteOp) (cable : Cable)
  /-- `ST_SINGLE_F4`, `11110100` (R86). -/
  | stSingleF4 (op : ByteOp) (cable : Cable)
  /-- `ST_SINGLE_F5`, `11110101` (R87). -/
  | stSingleF5 (op : ByteOp) (cable : Cable)
  /-- `ST_SINGLE_F6`, `11110110` (R88). -/
  | stSingleF6 (op : ByteOp) (cable : Cable)
  /-- `ST_EOX`, `11110111` (R89). -/
  | stEox (op : ByteOp) (cable : Cable)
  /-- `ST_REALTIME`, `11111rrr` (R90). -/
  | stRealtime (op : ByteOp) (cable : Cable) (r : BitVec 3)
  /-- `REQUEST_DEV_DESC`, header 0x40 (R95). -/
  | requestDevDesc (payload : List Byte)
  /-- `RETURN_DEV_DESC`, header 0x41 (R96). -/
  | returnDevDesc (payload : List Byte)
  /-- `REQUEST_DEV_STRING_IDXS`, header 0x42 (R97). -/
  | requestDevStringIdxs (payload : List Byte)
  /-- `RETURN_DEV_STRING_IDXS`, header 0x43 (R98). -/
  | returnDevStringIdxs (payload : List Byte)
  /-- `REQUEST_DEV_LANGIDS`, header 0x44 (R99). -/
  | requestDevLangids (payload : List Byte)
  /-- `RETURN_DEV_LANGIDS`, header 0x45 (R100). -/
  | returnDevLangids (payload : List Byte)
  /-- `REQUEST_DEV_STRING`, header 0x46 (R101). -/
  | requestDevString (payload : List Byte)
  /-- `RETURN_DEV_STRING`, header 0x47 (R102). -/
  | returnDevString (payload : List Byte)
  /-- `RESYNCHRONIZE`, header 0x48 (R103). -/
  | resynchronize (payload : List Byte)
  /-- `REQUEST_CONF_DESC_0`, header 0x49 (R104). -/
  | requestConfDesc0 (payload : List Byte)
  /-- `RETURN_CONF_DESC_0`, header 0x4A (R105). -/
  | returnConfDesc0 (payload : List Byte)
  /-- `REQUEST_CONF_DESC_1`, header 0x4B (R106). -/
  | requestConfDesc1 (payload : List Byte)
  /-- `RETURN_CONF_DESC_1`, header 0x4C (R107). -/
  | returnConfDesc1 (payload : List Byte)
  /-- `REQUEST_CONF_DESC_2`, header 0x4D (R108). -/
  | requestConfDesc2 (payload : List Byte)
  /-- `RETURN_CONF_DESC_2`, header 0x4E (R109). -/
  | returnConfDesc2 (payload : List Byte)
  /-- `NAV_BUTTON_STATUS`, header 0x50 (R110). -/
  | navButtonStatus (payload : List Byte)
  /-- `ACTIVE_MC_CABLE`, header 0x51 (R111). -/
  | activeMcCable (payload : List Byte)
  /-- `CHAN_BUTTON_MODE`, header 0x52 (R112). -/
  | chanButtonMode (payload : List Byte)
  /-- `MIDI_DATA`, header `HDR_MIDI_DATA` (R115). -/
  | midiData (payload : List Byte)
deriving DecidableEq, Repr

/-- What the environment hands to the block for one operation: one of the four formats of R53 and the bytes in it. A
packet comes with the operation it is for, a stream byte with its operation and its cable (the environment's free
choice, R44); an `OPSEL` request names its operation in its first byte. The layout of an `OPSEL` request's operand bytes
is the model's (DESIGN CHOICE, notes/assumptions/2.md). -/
inductive Request where
  | opsel  (bytes : List Byte)
  | packet (op : PacketOp) (bytes : List Byte)
  | midi   (op : ByteOp) (cable : Cable) (bytes : List Byte)
  | frame  (bytes : List Byte)
deriving DecidableEq, Repr

/-- Why a request is refused at the boundary of the block (R117, U12). -/
inductive Reject where
  /-- `OPSEL` 0xB to 0xF: there is no such operation (R116, R117). -/
  | unassignedOpsel
  /-- Bits 7:4 of an `OPSEL` byte are not 0 for an operation that takes no cable (notes/assumptions/2.md). -/
  | reservedBits
  /-- Fewer bytes than the format or the operation needs (R53, R116). -/
  | tooShort
  /-- More bytes than the format or the operation takes (R53, R116). -/
  | tooLong
deriving DecidableEq, Repr

end Sys2Proof
end

