-- ==== Sys2Proof/WellFormed.lean ====
section
/-! DEFINITION. Which instructions the environment's requests can carry: the bounds on operand lengths (R93, R116,
R156, R157). Every other operand is bounded by its type. -/

namespace Sys2Proof

/-- `SX.APPEND` takes 0 to 3 bytes (R116, R156). -/
def appendBytesOk (bytes : List Byte) : Bool := decide (bytes.length ≤ 3)

/-- `SX.SCAN_ABORT` takes 1 to 3 bytes (R116, R157). -/
def scanBytesOk (bytes : List Byte) : Bool := decide (1 ≤ bytes.length) && decide (bytes.length ≤ 3)

/-- A frame's payload is 0 to 255 bytes (R93). No other bound is checked: the framer does not compare a payload's length
with its header (R183). -/
def payloadOk (payload : List Byte) : Bool := decide (payload.length ≤ Config.cmdMaxPayload)

/-- The check of an instruction's operands. -/
def WellFormed : Instr → Bool
  | .reset => true
  | .pcFeed _ _ => true
  | .pcUnpack _ => true
  | .pcRxPacket _ => true
  | .sxAppend1 _ _ => true
  | .sxAppend _ bytes => appendBytesOk bytes
  | .sxScanAbort _ bytes => scanBytesOk bytes
  | .sxReset _ => true
  | .cfWriteCmd _ payload => payloadOk payload
  | .cfDrain _ => true
  | .cfRxByte _ => true
  | .cinReserved0 _ _ _ _ _ => true
  | .cinReserved1 _ _ _ _ _ => true
  | .cinSyscom2 _ _ _ _ _ => true
  | .cinSyscom3 _ _ _ _ _ => true
  | .cinSysexStart _ _ _ _ _ => true
  | .cinSysexEnd1 _ _ _ _ _ => true
  | .cinSysexEnd2 _ _ _ _ _ => true
  | .cinSysexEnd3 _ _ _ _ _ => true
  | .cinNoteOff _ _ _ _ _ => true
  | .cinNoteOn _ _ _ _ _ => true
  | .cinPolyPressure _ _ _ _ _ => true
  | .cinControlChange _ _ _ _ _ => true
  | .cinProgramChange _ _ _ _ _ => true
  | .cinChannelPressure _ _ _ _ _ => true
  | .cinPitchBend _ _ _ _ _ => true
  | .cinSingleByte _ _ _ _ _ => true
  | .data _ _ _ => true
  | .stNoteOff _ _ _ => true
  | .stNoteOn _ _ _ => true
  | .stPolyPressure _ _ _ => true
  | .stControlChange _ _ _ => true
  | .stProgramChange _ _ _ => true
  | .stChannelPressure _ _ _ => true
  | .stPitchBend _ _ _ => true
  | .stSysexStart _ _ => true
  | .stSyscomF1 _ _ => true
  | .stSyscomF2 _ _ => true
  | .stSyscomF3 _ _ => true
  | .stSingleF4 _ _ => true
  | .stSingleF5 _ _ => true
  | .stSingleF6 _ _ => true
  | .stEox _ _ => true
  | .stRealtime _ _ _ => true
  | .requestDevDesc payload => payloadOk payload
  | .returnDevDesc payload => payloadOk payload
  | .requestDevStringIdxs payload => payloadOk payload
  | .returnDevStringIdxs payload => payloadOk payload
  | .requestDevLangids payload => payloadOk payload
  | .returnDevLangids payload => payloadOk payload
  | .requestDevString payload => payloadOk payload
  | .returnDevString payload => payloadOk payload
  | .resynchronize payload => payloadOk payload
  | .requestConfDesc0 payload => payloadOk payload
  | .returnConfDesc0 payload => payloadOk payload
  | .requestConfDesc1 payload => payloadOk payload
  | .returnConfDesc1 payload => payloadOk payload
  | .requestConfDesc2 payload => payloadOk payload
  | .returnConfDesc2 payload => payloadOk payload
  | .navButtonStatus payload => payloadOk payload
  | .activeMcCable payload => payloadOk payload
  | .chanButtonMode payload => payloadOk payload
  | .midiData payload => payloadOk payload

end Sys2Proof
end

