-- ==== Sys2Proof/Decode.lean ====
section
/-! DEFINITION. The decoder, total on every request and refusing by name, the encoder after it, and how a word of
spec/opcode_table.json is laid out as a request. -/

namespace Sys2Proof

/-- `b[7:4]` (R7). -/
def hiNibble (b : Byte) : Nibble := b.extractLsb' 4 4

/-- `b[3:0]` (R7). -/
def loNibble (b : Byte) : Nibble := b.extractLsb' 0 4

/-- `(hi << 4) | lo`: the cable and CIN byte of a packet, and a status byte with its channel (R55, R75). -/
def joinNibbles (hi lo : Nibble) : Byte := hi ++ lo

/-- The byte `0vvvvvvv` of a `DATA` row (R74). -/
def dataByte (v : BitVec 7) : Byte := (0 : BitVec 1) ++ v

/-- The byte `11111rrr` of an `ST_REALTIME` row (R90). -/
def realtimeByte (r : BitVec 3) : Byte := (0x1F : BitVec 5) ++ r

/-- The number whose base-256 digits are the given bytes, the first the lowest (notes/assumptions/2.md). -/
def natOfBytes : List Byte → Nat
  | [] => 0
  | b :: bs => b.toNat + 256 * natOfBytes bs

/-- The base-256 digits of `k`, the lowest first, at most `fuel` of them; `k` itself is always fuel enough. -/
def bytesOfNat : Nat → Nat → List Byte
  | 0, _ => []
  | _ + 1, 0 => []
  | fuel + 1, k + 1 => BitVec.ofNat 8 (k + 1) :: bytesOfNat fuel ((k + 1) / 256)

/-- An operand of no byte. -/
def takeNone (i : Instr) : List Byte → Except Reject Instr
  | [] => .ok i
  | _ :: _ => .error .tooLong

/-- An operand of one byte. -/
def takeByte (f : Byte → Instr) : List Byte → Except Reject Instr
  | [] => .error .tooShort
  | [b] => .ok (f b)
  | _ :: _ :: _ => .error .tooLong

/-- An operand of one packet: 4 bytes (R53). -/
def takePacket (f : Packet → Instr) : List Byte → Except Reject Instr
  | [b0, b1, b2, b3] => .ok (f ⟨b0, b1, b2, b3⟩)
  | _ :: _ :: _ :: _ :: _ :: _ => .error .tooLong
  | _ => .error .tooShort

/-- An operand of `least` to `most` bytes. -/
def takeRun (least most : Nat) (f : List Byte → Instr) (bytes : List Byte) : Except Reject Instr :=
  if bytes.length < least then .error .tooShort
  else if most < bytes.length then .error .tooLong
  else .ok (f bytes)

/-- A frame: the header, the length byte, as many payload bytes as it says (R92, R118). -/
def takeFrame (f : Byte → List Byte → Instr) : List Byte → Except Reject Instr
  | header :: length :: payload =>
    if payload.length < length.toNat then .error .tooShort
    else if length.toNat < payload.length then .error .tooLong
    else .ok (f header payload)
  | _ => .error .tooShort

/-- An operation that takes no cable: bits 7:4 of its first byte are 0 (notes/assumptions/2.md). -/
def withoutCable (high : Nibble) (r : Except Reject Instr) : Except Reject Instr :=
  if high = 0 then r else .error .reservedBits

/-- An `OPSEL` request (R116): bits 3:0 of the first byte are the code, bits 7:4 the cable; the other inputs follow. -/
def decodeOpsel : List Byte → Except Reject Instr
  | [] => .error .tooShort
  | first :: operands =>
    let cable : Cable := hiNibble first
    match (loNibble first).toNat with
    | 0x0 => withoutCable cable (takeNone .reset operands)
    | 0x1 => takeByte (.pcFeed cable) operands
    | 0x2 => withoutCable cable (takePacket .pcUnpack operands)
    | 0x3 => withoutCable cable (takePacket .pcRxPacket operands)
    | 0x4 => takeByte (.sxAppend1 cable) operands
    | 0x5 => takeRun 0 3 (.sxAppend cable) operands
    | 0x6 => takeRun 1 3 (.sxScanAbort cable) operands
    | 0x7 => takeNone (.sxReset cable) operands
    | 0x8 => withoutCable cable (takeFrame .cfWriteCmd operands)
    | 0x9 => withoutCable cable (.ok (.cfDrain (natOfBytes operands)))
    | 0xA => withoutCable cable (takeByte .cfRxByte operands)
    | _ => .error .unassignedOpsel

/-- The row of a packet: its CIN, bits 3:0 of its first byte (R54 to R72). -/
def packetInstr (op : PacketOp) (p : Packet) : Instr :=
  let cn : Cable := hiNibble p.b0
  match (loNibble p.b0).toNat with
  | 0x0 => .cinReserved0 op cn p.b1 p.b2 p.b3
  | 0x1 => .cinReserved1 op cn p.b1 p.b2 p.b3
  | 0x2 => .cinSyscom2 op cn p.b1 p.b2 p.b3
  | 0x3 => .cinSyscom3 op cn p.b1 p.b2 p.b3
  | 0x4 => .cinSysexStart op cn p.b1 p.b2 p.b3
  | 0x5 => .cinSysexEnd1 op cn p.b1 p.b2 p.b3
  | 0x6 => .cinSysexEnd2 op cn p.b1 p.b2 p.b3
  | 0x7 => .cinSysexEnd3 op cn p.b1 p.b2 p.b3
  | 0x8 => .cinNoteOff op cn p.b1 p.b2 p.b3
  | 0x9 => .cinNoteOn op cn p.b1 p.b2 p.b3
  | 0xA => .cinPolyPressure op cn p.b1 p.b2 p.b3
  | 0xB => .cinControlChange op cn p.b1 p.b2 p.b3
  | 0xC => .cinProgramChange op cn p.b1 p.b2 p.b3
  | 0xD => .cinChannelPressure op cn p.b1 p.b2 p.b3
  | 0xE => .cinPitchBend op cn p.b1 p.b2 p.b3
  | _ => .cinSingleByte op cn p.b1 p.b2 p.b3

/-- The row of a stream byte (R73 to R90). -/
def midiInstr (op : ByteOp) (cable : Cable) (b : Byte) : Instr :=
  match (hiNibble b).toNat with
  | 0x8 => .stNoteOff op cable (loNibble b)
  | 0x9 => .stNoteOn op cable (loNibble b)
  | 0xA => .stPolyPressure op cable (loNibble b)
  | 0xB => .stControlChange op cable (loNibble b)
  | 0xC => .stProgramChange op cable (loNibble b)
  | 0xD => .stChannelPressure op cable (loNibble b)
  | 0xE => .stPitchBend op cable (loNibble b)
  | 0xF =>
    match (loNibble b).toNat with
    | 0x0 => .stSysexStart op cable
    | 0x1 => .stSyscomF1 op cable
    | 0x2 => .stSyscomF2 op cable
    | 0x3 => .stSyscomF3 op cable
    | 0x4 => .stSingleF4 op cable
    | 0x5 => .stSingleF5 op cable
    | 0x6 => .stSingleF6 op cable
    | 0x7 => .stEox op cable
    | _ => .stRealtime op cable (b.extractLsb' 0 3)
  | _ => .data op cable (b.extractLsb' 0 7)

/-- The row of a frame by its header (R95 to R115). A frame whose header is neither assigned nor `HDR_MIDI_DATA` has no
row of its own and is carried like any other (R113): it is the operation `CF.WRITE_CMD` of that header. -/
def frameInstr (midiHeader : Byte) (header : Byte) (payload : List Byte) : Instr :=
  match header.toNat with
  | 0x40 => .requestDevDesc payload
  | 0x41 => .returnDevDesc payload
  | 0x42 => .requestDevStringIdxs payload
  | 0x43 => .returnDevStringIdxs payload
  | 0x44 => .requestDevLangids payload
  | 0x45 => .returnDevLangids payload
  | 0x46 => .requestDevString payload
  | 0x47 => .returnDevString payload
  | 0x48 => .resynchronize payload
  | 0x49 => .requestConfDesc0 payload
  | 0x4A => .returnConfDesc0 payload
  | 0x4B => .requestConfDesc1 payload
  | 0x4C => .returnConfDesc1 payload
  | 0x4D => .requestConfDesc2 payload
  | 0x4E => .returnConfDesc2 payload
  | 0x50 => .navButtonStatus payload
  | 0x51 => .activeMcCable payload
  | 0x52 => .chanButtonMode payload
  | _ => if header = midiHeader then .midiData payload else .cfWriteCmd header payload

/-- The decoder: total on every request. -/
def decode : Request → Except Reject Instr
  | .opsel bytes => decodeOpsel bytes
  | .packet op bytes => takePacket (packetInstr op) bytes
  | .midi op cable bytes => takeByte (midiInstr op cable) bytes
  | .frame bytes => takeFrame (frameInstr Config.hdrMidiData) bytes

/-- The request of an operation of R116. -/
def opselRequest (code cable : Nibble) (operands : List Byte) : Request :=
  .opsel (joinNibbles cable code :: operands)

/-- A packet's 4 bytes in order (R39). -/
def packetBytes (p : Packet) : List Byte := [p.b0, p.b1, p.b2, p.b3]

/-- The request of a packet row (R55). -/
def packetRequest (cin : Nibble) (op : PacketOp) (cn : Cable) (d0 d1 d2 : Byte) : Request :=
  .packet op [joinNibbles cn cin, d0, d1, d2]

/-- The bytes of a frame: the header, the number of payload bytes, the payload (R92). -/
def frameBytes (header : Byte) (payload : List Byte) : List Byte :=
  header :: BitVec.ofNat 8 payload.length :: payload

/-- The encoder: the request of an instruction, from the same encoding tables. -/
def encode : Instr → Request
  | .reset => opselRequest 0x0 0 []
  | .pcFeed cable byte => opselRequest 0x1 cable [byte]
  | .pcUnpack packet => opselRequest 0x2 0 (packetBytes packet)
  | .pcRxPacket packet => opselRequest 0x3 0 (packetBytes packet)
  | .sxAppend1 cable byte => opselRequest 0x4 cable [byte]
  | .sxAppend cable bytes => opselRequest 0x5 cable bytes
  | .sxScanAbort cable bytes => opselRequest 0x6 cable bytes
  | .sxReset cable => opselRequest 0x7 cable []
  | .cfWriteCmd header payload => opselRequest 0x8 0 (frameBytes header payload)
  | .cfDrain k => opselRequest 0x9 0 (bytesOfNat k k)
  | .cfRxByte byte => opselRequest 0xA 0 [byte]
  | .cinReserved0 op cn d0 d1 d2 => packetRequest 0x0 op cn d0 d1 d2
  | .cinReserved1 op cn d0 d1 d2 => packetRequest 0x1 op cn d0 d1 d2
  | .cinSyscom2 op cn d0 d1 d2 => packetRequest 0x2 op cn d0 d1 d2
  | .cinSyscom3 op cn d0 d1 d2 => packetRequest 0x3 op cn d0 d1 d2
  | .cinSysexStart op cn d0 d1 d2 => packetRequest 0x4 op cn d0 d1 d2
  | .cinSysexEnd1 op cn d0 d1 d2 => packetRequest 0x5 op cn d0 d1 d2
  | .cinSysexEnd2 op cn d0 d1 d2 => packetRequest 0x6 op cn d0 d1 d2
  | .cinSysexEnd3 op cn d0 d1 d2 => packetRequest 0x7 op cn d0 d1 d2
  | .cinNoteOff op cn d0 d1 d2 => packetRequest 0x8 op cn d0 d1 d2
  | .cinNoteOn op cn d0 d1 d2 => packetRequest 0x9 op cn d0 d1 d2
  | .cinPolyPressure op cn d0 d1 d2 => packetRequest 0xA op cn d0 d1 d2
  | .cinControlChange op cn d0 d1 d2 => packetRequest 0xB op cn d0 d1 d2
  | .cinProgramChange op cn d0 d1 d2 => packetRequest 0xC op cn d0 d1 d2
  | .cinChannelPressure op cn d0 d1 d2 => packetRequest 0xD op cn d0 d1 d2
  | .cinPitchBend op cn d0 d1 d2 => packetRequest 0xE op cn d0 d1 d2
  | .cinSingleByte op cn d0 d1 d2 => packetRequest 0xF op cn d0 d1 d2
  | .data op cable v => .midi op cable [dataByte v]
  | .stNoteOff op cable n => .midi op cable [joinNibbles 0x8 n]
  | .stNoteOn op cable n => .midi op cable [joinNibbles 0x9 n]
  | .stPolyPressure op cable n => .midi op cable [joinNibbles 0xA n]
  | .stControlChange op cable n => .midi op cable [joinNibbles 0xB n]
  | .stProgramChange op cable n => .midi op cable [joinNibbles 0xC n]
  | .stChannelPressure op cable n => .midi op cable [joinNibbles 0xD n]
  | .stPitchBend op cable n => .midi op cable [joinNibbles 0xE n]
  | .stSysexStart op cable => .midi op cable [0xF0]
  | .stSyscomF1 op cable => .midi op cable [0xF1]
  | .stSyscomF2 op cable => .midi op cable [0xF2]
  | .stSyscomF3 op cable => .midi op cable [0xF3]
  | .stSingleF4 op cable => .midi op cable [0xF4]
  | .stSingleF5 op cable => .midi op cable [0xF5]
  | .stSingleF6 op cable => .midi op cable [0xF6]
  | .stEox op cable => .midi op cable [0xF7]
  | .stRealtime op cable r => .midi op cable [realtimeByte r]
  | .requestDevDesc payload => .frame (frameBytes 0x40 payload)
  | .returnDevDesc payload => .frame (frameBytes 0x41 payload)
  | .requestDevStringIdxs payload => .frame (frameBytes 0x42 payload)
  | .returnDevStringIdxs payload => .frame (frameBytes 0x43 payload)
  | .requestDevLangids payload => .frame (frameBytes 0x44 payload)
  | .returnDevLangids payload => .frame (frameBytes 0x45 payload)
  | .requestDevString payload => .frame (frameBytes 0x46 payload)
  | .returnDevString payload => .frame (frameBytes 0x47 payload)
  | .resynchronize payload => .frame (frameBytes 0x48 payload)
  | .requestConfDesc0 payload => .frame (frameBytes 0x49 payload)
  | .returnConfDesc0 payload => .frame (frameBytes 0x4A payload)
  | .requestConfDesc1 payload => .frame (frameBytes 0x4B payload)
  | .returnConfDesc1 payload => .frame (frameBytes 0x4C payload)
  | .requestConfDesc2 payload => .frame (frameBytes 0x4D payload)
  | .returnConfDesc2 payload => .frame (frameBytes 0x4E payload)
  | .navButtonStatus payload => .frame (frameBytes 0x50 payload)
  | .activeMcCable payload => .frame (frameBytes 0x51 payload)
  | .chanButtonMode payload => .frame (frameBytes 0x52 payload)
  | .midiData payload => .frame (frameBytes Config.hdrMidiData payload)

/-- The operand bytes, all 0, that an operation's row needs after its first byte: the table gives them no bits. -/
def opselOperandCount (code : Nat) : Nat :=
  match code with
  | 0x1 => 1
  | 0x2 => 4
  | 0x3 => 4
  | 0x4 => 1
  | 0x6 => 1
  | 0x8 => 2
  | 0xA => 1
  | _ => 0

/-- Byte `n` of a word, byte 0 the least significant. -/
def byteOfWord (w n : Nat) : Byte := BitVec.ofNat 8 (w / 256 ^ n)

/-- A word of spec/opcode_table.json as a request; the width says the format, and the table writes the first byte of a
packet and of a frame as the most significant one (notes/assumptions/3.md). A word of at most 8 bits is an `OPSEL` code if
it is at most 0xA (or has at most 4 bits), and a stream byte otherwise. A packet goes to `PC.UNPACK`, a stream byte to
`PC.FEED` of cable 0; a frame's payload is as many bytes 0 as its length byte says. -/
def tableRequest (nbits w : Nat) : Option Request :=
  if nbits ≤ 4 ∨ (nbits ≤ 8 ∧ w ≤ 0xA) then
    some (.opsel (byteOfWord w 0 :: List.replicate (opselOperandCount w) 0))
  else if nbits ≤ 8 then some (.midi .feed 0 [byteOfWord w 0])
  else if nbits = 16 then
    some (.frame (byteOfWord w 1 :: byteOfWord w 0 :: List.replicate (byteOfWord w 0).toNat 0))
  else if nbits = 32 then
    some (.packet .unpack [byteOfWord w 3, byteOfWord w 2, byteOfWord w 1, byteOfWord w 0])
  else none

/-- The instruction the decoder reads from a word of the opcode table. -/
def decodeTableWord (nbits w : Nat) : Option Instr :=
  match tableRequest nbits w with
  | some request =>
    match decode request with
    | .ok i => some i
    | .error _ => none
  | none => none

end Sys2Proof
end

