-- ==== Sys2Proof/Machine/State.lean ====
section
/-! DEFINITION. The state of one instance of the block (spec R11 to R36) as plain data, the results and events of its
operations (R9, R187, R188), the reasons a step can stop, and the state after reset (R36). -/

namespace Sys2Proof.Machine

/-- The contents of one of the block's byte arrays: (index, byte) pairs, indices strictly rising, no byte equal to what
an unlisted index reads as (`unlistedByte`). -/
abbrev Memory := List Host.Cell

/-- What an index of a byte array that nothing has written reads as. The spec leaves it unspecified (R19, R29, U6):
DESIGN CHOICE, unsafe (notes/assumptions/14.md, 15.md). -/
def unlistedByte : Byte := 0x00

/-- `cf[c]`, the packet being assembled on one cable (R12 to R17). -/
structure CableFrame where
  /-- The 4 bytes of the packet; no meaning while `filled == 0` (R13). -/
  packet : Packet
  /-- The number of MIDI bytes stored, 0 to 3 in 2 bits (R14). -/
  filled : BitVec 2
  /-- The number of MIDI bytes that complete the packet, 0 to 3 in 2 bits (R15). -/
  expectedSize : BitVec 2
  /-- Whether a SysEx is open on the cable's byte stream (R16). -/
  inSysex : Bool
deriving DecidableEq, Repr

/-- `sx[c]`, the SysEx being accumulated on one cable (R18 to R23). -/
structure SysexBuffer where
  /-- The array of 2048 bytes; only indices below `length` have meaning (R19). -/
  bytes : Memory
  /-- The number of bytes stored, 0 to 2048 (R20). -/
  length : Fin 2049
  /-- The bytes of the current message that were not stored, a saturating counter (R21). -/
  droppedCount : Counter
deriving DecidableEq, Repr

/-- `rx.state` (R29). -/
inductive RxState where
  | hdr
  | len
  | payload
deriving DecidableEq, Repr

/-- `rx`, the receive framer (R29). -/
structure RxFramer where
  state : RxState
  /-- The header byte of the frame being received; no meaning in state `HDR`. -/
  header : Byte
  /-- Its length byte; has meaning in state `PAYLOAD`. -/
  len : Byte
  /-- The number of payload bytes stored; has meaning in state `PAYLOAD`. -/
  count : Byte
  /-- The array of 255 bytes; only indices below `count` have meaning. -/
  payload : Memory
deriving DecidableEq, Repr

/-- The eleven event kinds (R188); an event carries its kind and nothing else (R190). -/
inductive Event where
  | strayData
  | midPacketStatus
  | packetOverflow
  | reservedCin
  | sysexBadStart
  | sysexAbortedByMessage
  | sysexCancelled
  | sysexByteDropped
  | txQueueFull
  | appendAfterComplete
  | sysexEoxInForeignPacket
deriving DecidableEq, Repr

/-- The counter an event increments (R188). -/
inductive EventCounter where
  | framingErr  -- `framing_err_count`
  | sysexDrop   -- `sx[c].dropped_count`
  | txDrop      -- `tx_drop_count`
  | noCounter
deriving DecidableEq, Repr

/-- `AccumResult` (R147). -/
inductive AccumResult where
  | continuing
  | complete (n : Nat)
  | aborted
  | refused
deriving DecidableEq, Repr

/-- What `PC.UNPACK` gives for a packet that is not discarded (R140). -/
structure Unpacked where
  cable : Cable
  cin   : Nibble
  bytes : List Byte
deriving DecidableEq, Repr

/-- A complete MIDI message (R162). -/
inductive Message where
  | short (cable : Cable) (bytes : List Byte)
  | sysex (cable : Cable) (bytes : List Byte) (dropped : Counter)
deriving DecidableEq, Repr

/-- The result of `CF.WRITE_CMD` (R173). -/
inductive WriteResult where
  | ok
  | dropped
deriving DecidableEq, Repr

/-- A received frame (R176). -/
structure Frame where
  header  : Byte
  payload : List Byte
deriving DecidableEq, Repr

/-- The result of an operation, by the result column of R116. -/
inductive OpResult where
  | noResult
  | packet   (r : Option Packet)
  | unpacked (r : Option Unpacked)
  | message  (r : Option Message)
  | accum    (r : AccumResult)
  | write    (r : WriteResult)
  | bytes    (r : List Byte)
  | frame    (r : Option Frame)
deriving DecidableEq, Repr

/-- One instance of the block. The first six fields are the whole state of R11. The last four are the model's own: what
the environment has asked for and not yet been given, the counter that free values are applied to, and the outcome (the
result and the events, R187) of the last operation executed (notes/assumptions/1.md, 8.md, 10.md). -/
structure State where
  /-- `cf[0 to 15]` (R12). -/
  cf : Vector CableFrame 16
  /-- `sx[0 to 15]` (R18). -/
  sx : Vector SysexBuffer 16
  /-- `framing_err_count` (R24). -/
  framingErrCount : Counter
  /-- `tx_drop_count` (R25). -/
  txDropCount : Counter
  /-- `txq`, the outbound byte queue, the head first (R28). -/
  txq : List Byte
  /-- `rx` (R29). -/
  rx : RxFramer
  /-- The environment's requests not yet executed, the next one first. -/
  inbox : List Request
  /-- How many operations the step has executed: what a free value is applied to. -/
  draws : Nat
  /-- The result of the last operation. -/
  result : OpResult
  /-- The events of the last operation, in order. -/
  events : List Event
deriving DecidableEq, Repr

/-- Why a step can fault: NEVER. The closed type has no constructor, because no operation of the block raises anything
(R187), no access can fault (R38, R41) and every operation is total (R9). -/
inductive Fault where
deriving DecidableEq, Repr

/-- Why a step can be refused. -/
inductive Refusal where
  /-- The instruction has no meaning in the model. No arm of `exec` raises it: every row has its meaning. Safe. -/
  | notModelled (mnemonic : String)
  /-- Raised by the step at the boundary when the next request names no operation or has the wrong number of bytes (R117,
  U12: "`refuse`: there is no such operation"). Safe: the run stops. -/
  | undecodable (why : Reject)
  /-- Raised by `CF.WRITE_CMD` and the frame rows for a payload of more than 255 bytes, which "has no encoding" and
  which no request can carry (R172). Safe: the run stops. -/
  | payloadTooLong
deriving DecidableEq, Repr

/-- A `CableFrame` after reset (R36). -/
def CableFrame.reset : CableFrame :=
  { packet := ⟨0x00, 0x00, 0x00, 0x00⟩, filled := 0, expectedSize := 0, inSysex := false }

/-- A `SysexBuffer` after reset (R36), its array with nothing listed. -/
def SysexBuffer.reset : SysexBuffer :=
  { bytes := [], length := 0, droppedCount := 0 }

/-- The receive framer after reset (R36), its array with nothing listed. -/
def RxFramer.reset : RxFramer :=
  { state := .hdr, header := 0, len := 0, count := 0, payload := [] }

/-- The machine right after reset (R36, R201): no request, no result, no event. -/
def State.reset : State :=
  { cf := Vector.replicate 16 CableFrame.reset
    sx := Vector.replicate 16 SysexBuffer.reset
    framingErrCount := 0
    txDropCount := 0
    txq := []
    rx := RxFramer.reset
    inbox := []
    draws := 0
    result := .noResult
    events := [] }

end Sys2Proof.Machine
end

