-- ==== Sys2Proof/Machine/Operands.lean ====
section
/-! DEFINITION. The operand forms: the fields of a packet, the number of valid bytes of a CIN, the shape a status byte
gives its packet, the assembly of a packet's first byte, the payload sizes of the assigned headers. -/

namespace Sys2Proof.Machine

/-- `CN`, bits 7:4 of a packet's first byte (R54, R55). -/
def Packet.cable (p : Packet) : Cable := hiNibble p.b0

/-- `CIN`, bits 3:0 of a packet's first byte (R54, R55). -/
def Packet.cin (p : Packet) : Nibble := loNibble p.b0

/-- `packet[1 + filled] <- b` (R13, R132). A packet has no index 4: the overflow guard (R135) stands before every use
of this with `filled == 3`. -/
def Packet.store (p : Packet) (filled : BitVec 2) (b : Byte) : Packet :=
  match filled.toNat with
  | 0 => { p with b1 := b }
  | 1 => { p with b2 := b }
  | 2 => { p with b3 := b }
  | _ => p

/-- A packet of a row: its cable, its CIN and its three data bytes (R54). -/
def Packet.ofFields (cin : Nibble) (cn : Cable) (d0 d1 d2 : Byte) : Packet :=
  ⟨joinNibbles cn cin, d0, d1, d2⟩

/-- `nbytes(CIN)`: the number of valid MIDI bytes of a packet, none for a reserved CIN (R56). -/
def nbytes (cin : Nibble) : Option Nat :=
  match cin.toNat with
  | 0x0 => none
  | 0x1 => none
  | 0x2 => some 2
  | 0x3 => some 3
  | 0x4 => some 3
  | 0x5 => some 1
  | 0x6 => some 2
  | 0x7 => some 3
  | 0x8 => some 3
  | 0x9 => some 3
  | 0xA => some 3
  | 0xB => some 3
  | 0xC => some 2
  | 0xD => some 2
  | 0xE => some 3
  | _ => some 1

/-- The valid bytes of a packet: the first `n` of its data bytes (R141). -/
def Packet.validBytes (p : Packet) (n : Nat) : List Byte := [p.b1, p.b2, p.b3].take n

/-- A data byte has bit 7 clear; a status byte has it set (R73). -/
def isStatus (b : Byte) : Bool := b.msb

/-- The CIN and the expected size that a status byte gives the packet it starts (R75 to R91, R121). -/
def startShape (b : Byte) : Nibble × BitVec 2 :=
  let hi := hiNibble b
  if hi = 0x8 ∨ hi = 0x9 ∨ hi = 0xA ∨ hi = 0xB ∨ hi = 0xE then (hi, 3)
  else if hi = 0xC ∨ hi = 0xD then (hi, 2)
  else if b = 0xF0 then (0x4, 3)
  else if b = 0xF1 ∨ b = 0xF3 then (0x2, 2)
  else if b = 0xF2 then (0x3, 3)
  else if b = 0xF7 then (0x5, 1)
  else (0xF, 1)

/-- `packet[0]` of a packet of a cable (R55, R91). -/
def packetHead (cable : Cable) (cin : Nibble) : Byte := joinNibbles cable cin

/-- `payload_len_ok(header, n)`: the payload sizes of the assigned headers, for a consumer; the framer never evaluates it
(R114). Any size for an unassigned header and for `HDR_MIDI_DATA`. -/
def payloadLenOk (header : Byte) (n : Nat) : Bool :=
  if header ∈ [0x40, 0x42, 0x44, 0x48, 0x49, 0x4B, 0x4D, 0x51] then decide (n = 0)
  else if header = 0x41 then decide (n = 18)
  else if header = 0x43 then true
  else if header = 0x45 then decide (n % 2 = 0)
  else if header = 0x46 then decide (n = 3)
  else if header = 0x47 then decide (3 ≤ n)
  else if header ∈ [0x4A, 0x4C, 0x4E] then decide (n ≤ Config.configDescMaxPayload)
  else if header ∈ [0x50, 0x52] then decide (n = 1)
  else true

end Sys2Proof.Machine
end

