-- ==== Sys2Proof/Machine/Flags.lean ====
section
/-! DEFINITION. The block's one flag `in_sysex` (R32), the predicate `sx_complete` (R23), and the code and counter of
each event (R188). -/

namespace Sys2Proof.Machine

/-- `in_sysex` after a status byte has started a message: 1 after 0xF0, 0 after every other (R131). -/
def inSysexAfterStart (b : Byte) : Bool := decide (b = 0xF0)

/-- The code of an event kind (R188). -/
def Event.code : Event → Byte
  | .strayData => 0x01
  | .midPacketStatus => 0x02
  | .packetOverflow => 0x03
  | .reservedCin => 0x04
  | .sysexBadStart => 0x05
  | .sysexAbortedByMessage => 0x06
  | .sysexCancelled => 0x07
  | .sysexByteDropped => 0x08
  | .txQueueFull => 0x09
  | .appendAfterComplete => 0x0A
  | .sysexEoxInForeignPacket => 0x0B

/-- The counter that an event kind increments (R188). -/
def Event.counter : Event → EventCounter
  | .strayData => .framingErr
  | .midPacketStatus => .framingErr
  | .packetOverflow => .framingErr
  | .reservedCin => .framingErr
  | .sysexBadStart => .framingErr
  | .sysexAbortedByMessage => .framingErr
  | .sysexCancelled => .noCounter
  | .sysexByteDropped => .sysexDrop
  | .txQueueFull => .txDrop
  | .appendAfterComplete => .noCounter
  | .sysexEoxInForeignPacket => .noCounter

/-- The document's error class of an event kind: 1 framing, 2 capacity, 4 backpressure, none otherwise (R188, R189). -/
def Event.errorClass (e : Event) : Option Nat :=
  match e.counter with
  | .framingErr => some 1
  | .sysexDrop => some 2
  | .txDrop => some 4
  | .noCounter => none

end Sys2Proof.Machine
end

