-- ==== Sys2Proof/Machine/Ops.lean ====
section
/-! DEFINITION. The named operations that every meaning goes through: the byte arrays, the saturating counters, the
per-cable register files, the delivery of an operation's outcome (the block's counterpart of taking an exception, R187 to
R194), and the fetch of the next request. -/

namespace Sys2Proof.Machine

/-! ### Byte arrays (R19, R29, R37) -/

/-- The byte at an index. -/
def Memory.read : Memory → Nat → Byte
  | [], _ => unlistedByte
  | (j, x) :: m, i => if i = j then x else Memory.read m i

/-- A byte put before the entries of higher index, unless it is what an unlisted index reads as. -/
def Memory.consCell (i : Nat) (b : Byte) (m : Memory) : Memory :=
  if b = unlistedByte then m else (i, b) :: m

/-- `a[i] <- b`, in the canonical form. -/
def Memory.write : Memory → Nat → Byte → Memory
  | [], i, b => Memory.consCell i b []
  | (j, x) :: m, i, b =>
    if i < j then Memory.consCell i b ((j, x) :: m)
    else if i = j then Memory.consCell i b m
    else (j, x) :: Memory.write m i b

/-- A copy of `a[0:n]` (R10, R51). -/
def Memory.copy (m : Memory) (n : Nat) : List Byte := (List.range n).map (Memory.read m)

/-- The canonical form of an array of `cap` bytes: indices strictly rising and below `cap`, no entry equal to what an
unlisted index reads as. -/
def Memory.wf (cap : Nat) : Memory → Bool
  | [] => true
  | (j, x) :: m =>
    decide (j < cap) && decide (x ≠ unlistedByte) && m.all (fun cell => decide (j < cell.1)) && Memory.wf cap m

/-! ### Counters (R27) -/

/-- `sat_inc`: `min(r + 1, 2^CNT_W - 1)`. -/
def satInc (r : Counter) : Counter := BitVec.ofNat 32 (min (r.toNat + 1) (2 ^ 32 - 1))

/-- A counter incremented once for each event of a list that names it (R24, R25, R188). -/
def countEvents (which : EventCounter) (events : List Event) (r : Counter) : Counter :=
  events.foldl (fun n e => if e.counter = which then satInc n else n) r

/-! ### The register files (R33) -/

/-- `cf[c]`. -/
def State.cable (s : State) (c : Cable) : CableFrame := s.cf[c.toNat]'(c.isLt)

/-- `cf[c] <- f`. -/
def State.setCable (s : State) (c : Cable) (f : CableFrame) : State :=
  { s with cf := s.cf.set c.toNat f c.isLt }

/-- `sx[c]`. -/
def State.sysex (s : State) (c : Cable) : SysexBuffer := s.sx[c.toNat]'(c.isLt)

/-- `sx[c] <- b`. -/
def State.setSysex (s : State) (c : Cable) (b : SysexBuffer) : State :=
  { s with sx := s.sx.set c.toNat b c.isLt }

/-! ### What an operation does -/

/-- What an operation does to the one component it works on: the component after it, its result and its events in
order (R9, R187). -/
structure Did (σ ρ : Type) where
  now    : σ
  result : ρ
  events : List Event
deriving DecidableEq, Repr

/-- The end of every operation: its result and its events are the outcome, and each event increments the counter of its
kind once (R187, R188, R190). `sx[c].dropped_count` stands in the `SysexBuffer` and is incremented there (R153). -/
def State.finish (s : State) (result : OpResult) (events : List Event) : State :=
  { s with
    framingErrCount := countEvents .framingErr events s.framingErrCount
    txDropCount := countEvents .txDrop events s.txDropCount
    result := result
    events := events }

/-! ### The fetch -/

/-- The next request and the state without it; `draws` advances, so that every operation draws its own free values.
`none` where the environment has issued no operation. -/
def State.fetch (s : State) : Option (Request × State) :=
  match s.inbox with
  | [] => none
  | request :: rest => some (request, { s with inbox := rest, draws := s.draws + 1 })

/-- A request issued before all that are waiting. -/
def State.request (s : State) (request : Request) : State :=
  { s with inbox := request :: s.inbox }

end Sys2Proof.Machine
end

