-- ==== Sys2Proof/Machine/Codec.lean ====
section
/-! DEFINITION. The packet codec: `PC.FEED` (spec file 40) and `PC.UNPACK` (spec file 41). -/

namespace Sys2Proof.Machine

/-- `BEGIN(c, b, cin, size)` (R121). -/
def CableFrame.start (F : CableFrame) (c : Cable) (b : Byte) (cin : Nibble) (size : BitVec 2) : CableFrame :=
  { F with packet := ⟨packetHead c cin, b, 0x00, 0x00⟩, filled := 1, expectedSize := size }

/-- `FINISH(c)`: a packet that has all its bytes is returned and `filled` is cleared (R136). -/
def CableFrame.complete (F : CableFrame) (events : List Event) : Did CableFrame (Option Packet) :=
  if F.filled = F.expectedSize then ⟨{ F with filled := 0 }, some F.packet, events⟩
  else ⟨F, none, events⟩

/-- `START(c, b)`: a byte at `filled == 0` (R122 to R131). `events` are those emitted before it. -/
def CableFrame.first (F : CableFrame) (c : Cable) (b : Byte) (events : List Event) :
    Did CableFrame (Option Packet) :=
  if isStatus b then
    let shape := startShape b
    CableFrame.complete ({ F with inSysex := inSysexAfterStart b }.start c b shape.1 shape.2) events
  else if F.inSysex then (F.start c b 0x4 3).complete events
  else ⟨F, none, events ++ [.strayData]⟩

/-- `PC.FEED(c, b)` on the cable's frame, its tests in the order of R121. -/
def CableFrame.feed (F : CableFrame) (c : Cable) (b : Byte) : Did CableFrame (Option Packet) :=
  if F.filled = 0 then F.first c b []
  else if F.expectedSize ≤ F.filled ∨ 2 < F.filled then
    ⟨{ F with filled := 0 }, none, [.packetOverflow]⟩
  else if b = 0xF7 ∧ Packet.cin F.packet = 0x4 then
    let packet := { Packet.store F.packet F.filled 0xF7 with
      b0 := packetHead c (0x4 + (F.filled.setWidth 4 + 1)) }
    ⟨{ F with packet := packet, filled := 0, inSysex := false }, some packet, []⟩
  else if isStatus b then
    CableFrame.first { F with filled := 0, inSysex := false } c b [.midPacketStatus]
  else
    CableFrame.complete
      { F with packet := Packet.store F.packet F.filled b, filled := F.filled + 1 } []

/-- `PC.UNPACK(packet)`, the part that reads no state: `none` for a reserved CIN (R141). -/
def Packet.unpack (p : Packet) : Option Unpacked :=
  match nbytes (Packet.cin p) with
  | none => none
  | some n => some ⟨Packet.cable p, Packet.cin p, Packet.validBytes p n⟩

/-- The events of `PC.UNPACK`: `ReservedCin` for a packet that is discarded (R142). -/
def unpackEvents (u : Option Unpacked) : List Event :=
  match u with
  | none => [.reservedCin]
  | some _ => []

/-- `PC.FEED` of a byte for a cable (R120). -/
def State.feed (s : State) (c : Cable) (b : Byte) : State :=
  let did := (s.cable c).feed c b
  (s.setCable c did.now).finish (.packet did.result) did.events

/-- `PC.UNPACK` of a packet (R140). -/
def State.unpack (s : State) (p : Packet) : State :=
  let u := Packet.unpack p
  s.finish (.unpacked u) (unpackEvents u)

/-- `PC.FEED` (R120 to R139). -/
def execPcFeed (c : Cable) (b : Byte) (s : State) : Host.Outcome State Fault Refusal :=
  .next (s.feed c b)

/-- `PC.UNPACK` (R140 to R146). -/
def execPcUnpack (p : Packet) (s : State) : Host.Outcome State Fault Refusal :=
  .next (s.unpack p)

end Sys2Proof.Machine
end

