-- ==== Sys2Proof/Machine/Sysex.lean ====
section
/-! DEFINITION. The SysEx accumulator: `SX.APPEND1`, `SX.APPEND`, `SX.SCAN_ABORT`, `SX.RESET` (spec file 42). -/

namespace Sys2Proof.Machine

/-- `S.bytes[S.length - 1]`: the last stored byte. -/
def SysexBuffer.lastByte (S : SysexBuffer) : Byte := Memory.read S.bytes (S.length.val - 1)

/-- `sx_complete(c)`: a complete message that has not been reset (R23). -/
def SysexBuffer.isComplete (S : SysexBuffer) : Bool :=
  decide (0 < S.length.val) && decide (S.lastByte = 0xF7)

/-- The message stored so far, a copy of `bytes[0:length]` (R160). -/
def SysexBuffer.message (S : SysexBuffer) : List Byte := Memory.copy S.bytes S.length.val

/-- `bytes[i] <- b; length <- i + 1`. -/
def SysexBuffer.put (S : SysexBuffer) (i : Nat) (b : Byte) : SysexBuffer :=
  { S with bytes := Memory.write S.bytes i b, length := Fin.ofNat 2049 (i + 1) }

/-- The slot of a closing EOX: `length`, which R151 makes at most 2047. In a message in progress with `length == 2048`,
which no run reaches (R22 (b)), the slot is a free value (notes/assumptions/6.md). -/
def SysexBuffer.eoxSlot (S : SysexBuffer) (draw : Nat) : Nat :=
  if S.length.val < Config.sysexCapacity then S.length.val else (Config.eoxOverrunSlot draw).toNat

/-- `SX.APPEND1(cable, b)` on the cable's buffer, its tests in the order of R148. -/
def SysexBuffer.append1 (S : SysexBuffer) (draw : Nat) (b : Byte) : Did SysexBuffer AccumResult :=
  if S.isComplete then ⟨S, .refused, [.appendAfterComplete]⟩
  else if S.length.val = 0 then
    if b = 0xF0 then ⟨S.put 0 0xF0, .continuing, []⟩
    else ⟨S, .aborted, [.sysexBadStart]⟩
  else if b = 0xF0 then
    ⟨SysexBuffer.put { S with droppedCount := 0 } 0 0xF0, .continuing, [.sysexCancelled]⟩
  else if b = 0xF7 then
    let slot := S.eoxSlot draw
    ⟨S.put slot 0xF7, .complete (slot + 1), []⟩
  else if S.length.val < Config.sysexCapacity - 1 then ⟨S.put S.length.val b, .continuing, []⟩
  else ⟨{ S with droppedCount := satInc S.droppedCount }, .continuing, [.sysexByteDropped]⟩

/-- `SX.APPEND(cable, bytes)`: byte by byte up to the first result that is not `Continuing` (R156). -/
def SysexBuffer.append (S : SysexBuffer) (draw : Nat) : List Byte → Did SysexBuffer AccumResult
  | [] => ⟨S, .continuing, []⟩
  | b :: rest =>
    let one := S.append1 draw b
    if one.result = .continuing then
      let more := SysexBuffer.append one.now draw rest
      ⟨more.now, more.result, one.events ++ more.events⟩
    else one

/-- `SX.RESET(cable)`: `bytes` is left as it is (R158). -/
def SysexBuffer.clear (S : SysexBuffer) : SysexBuffer := { S with length := 0, droppedCount := 0 }

/-- `SX.SCAN_ABORT(cable, bytes)` on the cable's buffer (R157). -/
def SysexBuffer.scanAbort (S : SysexBuffer) (draw : Nat) (bytes : List Byte) : Did SysexBuffer AccumResult :=
  if S.length.val = 0 then ⟨S, .continuing, []⟩
  else if S.isComplete then ⟨S, .refused, [.appendAfterComplete]⟩
  else if 0xF7 ∈ bytes then S.append1 draw 0xF7
  else ⟨S.clear, .aborted, [.sysexAbortedByMessage]⟩

/-- An accumulator operation on `sx[c]`, its result the operation's. -/
def State.accumulate (s : State) (c : Cable) (did : Did SysexBuffer AccumResult) : State :=
  (s.setSysex c did.now).finish (.accum did.result) did.events

/-- `SX.APPEND1` of a byte for a cable (R148). -/
def State.append1 (s : State) (c : Cable) (b : Byte) : State :=
  s.accumulate c ((s.sysex c).append1 s.draws b)

/-- `SX.APPEND1` (R148 to R155). -/
def execSxAppend1 (c : Cable) (b : Byte) (s : State) : Host.Outcome State Fault Refusal :=
  .next (s.append1 c b)

/-- `SX.APPEND` (R156). -/
def execSxAppend (c : Cable) (bytes : List Byte) (s : State) : Host.Outcome State Fault Refusal :=
  .next (s.accumulate c ((s.sysex c).append s.draws bytes))

/-- `SX.SCAN_ABORT` (R157). -/
def execSxScanAbort (c : Cable) (bytes : List Byte) (s : State) : Host.Outcome State Fault Refusal :=
  .next (s.accumulate c ((s.sysex c).scanAbort s.draws bytes))

/-- `SX.RESET` (R158): no result, no event. -/
def execSxReset (c : Cable) (s : State) : Host.Outcome State Fault Refusal :=
  .next ((s.setSysex c (s.sysex c).clear).finish .noResult [])

end Sys2Proof.Machine
end

