-- ==== Sys2Proof/Machine/RxPacket.lean ====
section
/-! DEFINITION. `PC.RX_PACKET`: a packet to a complete message (spec file 43). -/

namespace Sys2Proof.Machine

/-- A packet that goes to the accumulator: CIN 0x4, 0x6, 0x7, or CIN 0x5 whose one byte is 0xF7 (R164). -/
def Unpacked.isSysex (u : Unpacked) : Bool :=
  decide (u.cin = 0x4 ∨ u.cin = 0x6 ∨ u.cin = 0x7 ∨ (u.cin = 0x5 ∧ u.bytes.head? = some 0xF7))

/-- A completed SysEx is copied out with its drop count and the buffer is reset (R165). -/
def SysexBuffer.handOff (S : SysexBuffer) (c : Cable) (events : List Event) : Did SysexBuffer (Option Message) :=
  ⟨S.clear, some (.sysex c S.message S.droppedCount), events⟩

/-- The SysEx route: the bytes go to `SX.APPEND` (R165). -/
def SysexBuffer.rxSysex (S : SysexBuffer) (draw : Nat) (u : Unpacked) : Did SysexBuffer (Option Message) :=
  let did := S.append draw u.bytes
  match did.result with
  | .complete _ => did.now.handOff u.cable did.events
  | .continuing => ⟨did.now, none, did.events⟩
  | .aborted => ⟨did.now, none, did.events⟩
  | .refused => ⟨did.now, none, did.events⟩

/-- The short route: the packet is a message of its own, unless its 0xF7 ends the SysEx in progress (R166, R167). -/
def SysexBuffer.rxShort (S : SysexBuffer) (draw : Nat) (u : Unpacked) : Did SysexBuffer (Option Message) :=
  if 0 < S.length.val then
    let did := S.scanAbort draw u.bytes
    match did.result with
    | .complete _ => did.now.handOff u.cable (did.events ++ [.sysexEoxInForeignPacket])
    | .continuing => ⟨did.now, some (.short u.cable u.bytes), did.events⟩
    | .aborted => ⟨did.now, some (.short u.cable u.bytes), did.events⟩
    | .refused => ⟨did.now, some (.short u.cable u.bytes), did.events⟩
  else ⟨S, some (.short u.cable u.bytes), []⟩

/-- `PC.RX_PACKET` of a packet (R163); a reserved CIN changes no buffer (R169). -/
def State.rxPacket (s : State) (p : Packet) : State :=
  match Packet.unpack p with
  | none => s.finish (.message none) (unpackEvents none)
  | some u =>
    let did :=
      if u.isSysex then (s.sysex u.cable).rxSysex s.draws u
      else (s.sysex u.cable).rxShort s.draws u
    (s.setSysex u.cable did.now).finish (.message did.result) did.events

/-- `PC.RX_PACKET` (R162 to R170). -/
def execPcRxPacket (p : Packet) (s : State) : Host.Outcome State Fault Refusal :=
  .next (s.rxPacket p)

end Sys2Proof.Machine
end

