-- ==== Sys2Proof/Machine/ByteRows.lean ====
section
/-! DEFINITION. The `MIDI_BYTE` rows: a stream byte of the row's class given to `PC.FEED` or `SX.APPEND1` of a cable
(notes/assumptions/5.md). -/

namespace Sys2Proof.Machine

/-- A stream byte for a cable given to one of the operations that take a byte (R53). -/
def State.giveByte (s : State) (op : ByteOp) (c : Cable) (b : Byte) : State :=
  match op with
  | .feed => s.feed c b
  | .append1 => s.append1 c b

/-- `DATA`, `0vvvvvvv` (R74). -/
def execData (op : ByteOp) (c : Cable) (v : BitVec 7) (s : State) : Host.Outcome State Fault Refusal :=
  .next (s.giveByte op c (dataByte v))

/-- `ST_NOTE_OFF`, `1000nnnn` (R75). -/
def execStNoteOff (op : ByteOp) (c : Cable) (n : Nibble) (s : State) : Host.Outcome State Fault Refusal :=
  .next (s.giveByte op c (joinNibbles 0x8 n))

/-- `ST_NOTE_ON`, `1001nnnn` (R76). -/
def execStNoteOn (op : ByteOp) (c : Cable) (n : Nibble) (s : State) : Host.Outcome State Fault Refusal :=
  .next (s.giveByte op c (joinNibbles 0x9 n))

/-- `ST_POLY_PRESSURE`, `1010nnnn` (R77). -/
def execStPolyPressure (op : ByteOp) (c : Cable) (n : Nibble) (s : State) : Host.Outcome State Fault Refusal :=
  .next (s.giveByte op c (joinNibbles 0xA n))

/-- `ST_CONTROL_CHANGE`, `1011nnnn` (R78). -/
def execStControlChange (op : ByteOp) (c : Cable) (n : Nibble) (s : State) : Host.Outcome State Fault Refusal :=
  .next (s.giveByte op c (joinNibbles 0xB n))

/-- `ST_PROGRAM_CHANGE`, `1100nnnn` (R79). -/
def execStProgramChange (op : ByteOp) (c : Cable) (n : Nibble) (s : State) : Host.Outcome State Fault Refusal :=
  .next (s.giveByte op c (joinNibbles 0xC n))

/-- `ST_CHANNEL_PRESSURE`, `1101nnnn` (R80). -/
def execStChannelPressure (op : ByteOp) (c : Cable) (n : Nibble) (s : State) : Host.Outcome State Fault Refusal :=
  .next (s.giveByte op c (joinNibbles 0xD n))

/-- `ST_PITCH_BEND`, `1110nnnn` (R81). -/
def execStPitchBend (op : ByteOp) (c : Cable) (n : Nibble) (s : State) : Host.Outcome State Fault Refusal :=
  .next (s.giveByte op c (joinNibbles 0xE n))

/-- `ST_SYSEX_START`, `11110000` (R82). -/
def execStSysexStart (op : ByteOp) (c : Cable) (s : State) : Host.Outcome State Fault Refusal :=
  .next (s.giveByte op c 0xF0)

/-- `ST_SYSCOM_F1`, `11110001` (R83). -/
def execStSyscomF1 (op : ByteOp) (c : Cable) (s : State) : Host.Outcome State Fault Refusal :=
  .next (s.giveByte op c 0xF1)

/-- `ST_SYSCOM_F2`, `11110010` (R84). -/
def execStSyscomF2 (op : ByteOp) (c : Cable) (s : State) : Host.Outcome State Fault Refusal :=
  .next (s.giveByte op c 0xF2)

/-- `ST_SYSCOM_F3`, `11110011` (R85). -/
def execStSyscomF3 (op : ByteOp) (c : Cable) (s : State) : Host.Outcome State Fault Refusal :=
  .next (s.giveByte op c 0xF3)

/-- `ST_SINGLE_F4`, `11110100` (R86). -/
def execStSingleF4 (op : ByteOp) (c : Cable) (s : State) : Host.Outcome State Fault Refusal :=
  .next (s.giveByte op c 0xF4)

/-- `ST_SINGLE_F5`, `11110101` (R87). -/
def execStSingleF5 (op : ByteOp) (c : Cable) (s : State) : Host.Outcome State Fault Refusal :=
  .next (s.giveByte op c 0xF5)

/-- `ST_SINGLE_F6`, `11110110` (R88). -/
def execStSingleF6 (op : ByteOp) (c : Cable) (s : State) : Host.Outcome State Fault Refusal :=
  .next (s.giveByte op c 0xF6)

/-- `ST_EOX`, `11110111` (R89). -/
def execStEox (op : ByteOp) (c : Cable) (s : State) : Host.Outcome State Fault Refusal :=
  .next (s.giveByte op c 0xF7)

/-- `ST_REALTIME`, `11111rrr` (R90). -/
def execStRealtime (op : ByteOp) (c : Cable) (r : BitVec 3) (s : State) : Host.Outcome State Fault Refusal :=
  .next (s.giveByte op c (realtimeByte r))

end Sys2Proof.Machine
end

