-- ==== Sys2Proof/Machine/Control.lean ====
section
/-! DEFINITION. `RESET` (spec file 70). -/

namespace Sys2Proof.Machine

/-- The receive framer after `RESET`: `rx.payload` is left as it is (R201). -/
def RxFramer.clear (rx : RxFramer) : RxFramer :=
  { rx with state := .hdr, header := 0, len := 0, count := 0 }

/-- `RESET` on the state of R11: every field at its value of R36, the two kinds of byte array left as they are (R201).
What the environment has asked for and the draw counter are not the block's state and stay. -/
def State.quiesce (s : State) : State :=
  { s with
    cf := Vector.replicate 16 CableFrame.reset
    sx := s.sx.map SysexBuffer.clear
    framingErrCount := 0
    txDropCount := 0
    txq := []
    rx := s.rx.clear }

/-- `RESET` (R201, R202): no result, no event. -/
def execReset (s : State) : Host.Outcome State Fault Refusal :=
  .next (s.quiesce.finish .noResult [])

end Sys2Proof.Machine
end

