-- ==== Sys2Proof/Machine/Framer.lean ====
section
/-! DEFINITION. The command-channel framer: `CF.ENCODE`, `CF.WRITE_CMD`, `CF.DRAIN`, `CF.RX_BYTE` (spec file 44). -/

namespace Sys2Proof.Machine

/-- `CF.ENCODE(header, payload)`: `[header, len(payload)] ++ payload` (R172). -/
def encodeFrame (header : Byte) (payload : List Byte) : List Byte :=
  [header, BitVec.ofNat 8 payload.length] ++ payload

/-- `CF.WRITE_CMD` on the queue (R173): a frame enters whole or not at all. `admits` says how many bytes the queue may
hold: the open parameter `TXQ_CAPACITY` is taken as an argument (R6). -/
def writeFrame (admits : Nat → Bool) (txq : List Byte) (header : Byte) (payload : List Byte) :
    Did (List Byte) WriteResult :=
  let frame := encodeFrame header payload
  if admits (txq.length + frame.length) then ⟨txq ++ frame, .ok, []⟩
  else ⟨txq, .dropped, [.txQueueFull]⟩

/-- `CF.WRITE_CMD` of a payload of at most 255 bytes; a longer one has no encoding (R172). -/
def State.writeCmd (s : State) (header : Byte) (payload : List Byte) : Host.Outcome State Fault Refusal :=
  if payload.length ≤ Config.cmdMaxPayload then
    let did := writeFrame Config.txqAdmits s.txq header payload
    .next ({ s with txq := did.now }.finish (.write did.result) did.events)
  else .refused .payloadTooLong

/-- `rx.payload[rx.count] <- b; rx.count <- rx.count + 1` (R179). With `rx.count == 255`, which no run reaches in state
`PAYLOAD`, the array has no such index and the next count is a free value (notes/assumptions/7.md). -/
def RxFramer.storeByte (rx : RxFramer) (draw : Nat) (b : Byte) : RxFramer :=
  if rx.count.toNat < Config.cmdMaxPayload then
    { rx with payload := Memory.write rx.payload rx.count.toNat b, count := rx.count + 1 }
  else { rx with count := Config.rxCountOverrun draw }

/-- `CF.RX_BYTE(b)` on the receive framer (R176 to R179). -/
def RxFramer.receive (rx : RxFramer) (draw : Nat) (b : Byte) : RxFramer × Option Frame :=
  match rx.state with
  | .hdr => ({ rx with header := b, state := .len }, none)
  | .len =>
    if b = 0 then ({ rx with len := b, count := 0, state := .hdr }, some ⟨rx.header, []⟩)
    else ({ rx with len := b, count := 0, state := .payload }, none)
  | .payload =>
    let stored := rx.storeByte draw b
    if stored.count = stored.len then
      ({ stored with state := .hdr }, some ⟨stored.header, Memory.copy stored.payload stored.len.toNat⟩)
    else (stored, none)

/-- `CF.WRITE_CMD` (R173, R174). -/
def execCfWriteCmd (header : Byte) (payload : List Byte) (s : State) : Host.Outcome State Fault Refusal :=
  s.writeCmd header payload

/-- `CF.DRAIN` (R175): the first `min(k, occ(txq))` bytes, removed from the queue. -/
def execCfDrain (k : Nat) (s : State) : Host.Outcome State Fault Refusal :=
  .next ({ s with txq := s.txq.drop k }.finish (.bytes (s.txq.take k)) [])

/-- `CF.RX_BYTE` (R176 to R183). -/
def execCfRxByte (b : Byte) (s : State) : Host.Outcome State Fault Refusal :=
  let did := s.rx.receive s.draws b
  .next ({ s with rx := did.1 }.finish (.frame did.2) [])

end Sys2Proof.Machine
end

