-- ==== Sys2Proof/Machine/FrameRows.lean ====
section
/-! DEFINITION. The `CMD_FRAME` rows: a frame with the row's header given to `CF.WRITE_CMD`, the one operation that takes
a whole frame (notes/assumptions/9.md). The payload is carried as it is, whatever its length and bytes (R183). -/

namespace Sys2Proof.Machine

/-- `REQUEST_DEV_DESC`, header 0x40 (R95). -/
def execRequestDevDesc (payload : List Byte) (s : State) : Host.Outcome State Fault Refusal :=
  s.writeCmd 0x40 payload

/-- `RETURN_DEV_DESC`, header 0x41 (R96). -/
def execReturnDevDesc (payload : List Byte) (s : State) : Host.Outcome State Fault Refusal :=
  s.writeCmd 0x41 payload

/-- `REQUEST_DEV_STRING_IDXS`, header 0x42 (R97). -/
def execRequestDevStringIdxs (payload : List Byte) (s : State) : Host.Outcome State Fault Refusal :=
  s.writeCmd 0x42 payload

/-- `RETURN_DEV_STRING_IDXS`, header 0x43 (R98). -/
def execReturnDevStringIdxs (payload : List Byte) (s : State) : Host.Outcome State Fault Refusal :=
  s.writeCmd 0x43 payload

/-- `REQUEST_DEV_LANGIDS`, header 0x44 (R99). -/
def execRequestDevLangids (payload : List Byte) (s : State) : Host.Outcome State Fault Refusal :=
  s.writeCmd 0x44 payload

/-- `RETURN_DEV_LANGIDS`, header 0x45 (R100). -/
def execReturnDevLangids (payload : List Byte) (s : State) : Host.Outcome State Fault Refusal :=
  s.writeCmd 0x45 payload

/-- `REQUEST_DEV_STRING`, header 0x46 (R101). -/
def execRequestDevString (payload : List Byte) (s : State) : Host.Outcome State Fault Refusal :=
  s.writeCmd 0x46 payload

/-- `RETURN_DEV_STRING`, header 0x47 (R102). -/
def execReturnDevString (payload : List Byte) (s : State) : Host.Outcome State Fault Refusal :=
  s.writeCmd 0x47 payload

/-- `RESYNCHRONIZE`, header 0x48 (R103). -/
def execResynchronize (payload : List Byte) (s : State) : Host.Outcome State Fault Refusal :=
  s.writeCmd 0x48 payload

/-- `REQUEST_CONF_DESC_0`, header 0x49 (R104). -/
def execRequestConfDesc0 (payload : List Byte) (s : State) : Host.Outcome State Fault Refusal :=
  s.writeCmd 0x49 payload

/-- `RETURN_CONF_DESC_0`, header 0x4A (R105). -/
def execReturnConfDesc0 (payload : List Byte) (s : State) : Host.Outcome State Fault Refusal :=
  s.writeCmd 0x4A payload

/-- `REQUEST_CONF_DESC_1`, header 0x4B (R106). -/
def execRequestConfDesc1 (payload : List Byte) (s : State) : Host.Outcome State Fault Refusal :=
  s.writeCmd 0x4B payload

/-- `RETURN_CONF_DESC_1`, header 0x4C (R107). -/
def execReturnConfDesc1 (payload : List Byte) (s : State) : Host.Outcome State Fault Refusal :=
  s.writeCmd 0x4C payload

/-- `REQUEST_CONF_DESC_2`, header 0x4D (R108). -/
def execRequestConfDesc2 (payload : List Byte) (s : State) : Host.Outcome State Fault Refusal :=
  s.writeCmd 0x4D payload

/-- `RETURN_CONF_DESC_2`, header 0x4E (R109). -/
def execReturnConfDesc2 (payload : List Byte) (s : State) : Host.Outcome State Fault Refusal :=
  s.writeCmd 0x4E payload

/-- `NAV_BUTTON_STATUS`, header 0x50 (R110). -/
def execNavButtonStatus (payload : List Byte) (s : State) : Host.Outcome State Fault Refusal :=
  s.writeCmd 0x50 payload

/-- `ACTIVE_MC_CABLE`, header 0x51 (R111). -/
def execActiveMcCable (payload : List Byte) (s : State) : Host.Outcome State Fault Refusal :=
  s.writeCmd 0x51 payload

/-- `CHAN_BUTTON_MODE`, header 0x52 (R112). -/
def execChanButtonMode (payload : List Byte) (s : State) : Host.Outcome State Fault Refusal :=
  s.writeCmd 0x52 payload

/-- `MIDI_DATA`, header `HDR_MIDI_DATA` (R115). -/
def execMidiData (payload : List Byte) (s : State) : Host.Outcome State Fault Refusal :=
  s.writeCmd Config.hdrMidiData payload

end Sys2Proof.Machine
end

