-- ==== Sys2Proof/Machine/PacketRows.lean ====
section
/-! DEFINITION. The `USBMIDI_PKT` rows: a packet with the row's CIN given to `PC.UNPACK` or `PC.RX_PACKET`
(notes/assumptions/4.md). -/

namespace Sys2Proof.Machine

/-- A packet given to one of the operations that take a packet (R53). -/
def State.givePacket (s : State) (op : PacketOp) (p : Packet) : State :=
  match op with
  | .unpack => s.unpack p
  | .rxPacket => s.rxPacket p

/-- `CIN_RESERVED_0`, CIN 0x0 (R57). -/
def execCinReserved0 (op : PacketOp) (cn : Cable) (d0 d1 d2 : Byte) (s : State) :
    Host.Outcome State Fault Refusal :=
  .next (s.givePacket op (Packet.ofFields 0x0 cn d0 d1 d2))

/-- `CIN_RESERVED_1`, CIN 0x1 (R58). -/
def execCinReserved1 (op : PacketOp) (cn : Cable) (d0 d1 d2 : Byte) (s : State) :
    Host.Outcome State Fault Refusal :=
  .next (s.givePacket op (Packet.ofFields 0x1 cn d0 d1 d2))

/-- `CIN_SYSCOM_2`, CIN 0x2 (R59). -/
def execCinSyscom2 (op : PacketOp) (cn : Cable) (d0 d1 d2 : Byte) (s : State) :
    Host.Outcome State Fault Refusal :=
  .next (s.givePacket op (Packet.ofFields 0x2 cn d0 d1 d2))

/-- `CIN_SYSCOM_3`, CIN 0x3 (R60). -/
def execCinSyscom3 (op : PacketOp) (cn : Cable) (d0 d1 d2 : Byte) (s : State) :
    Host.Outcome State Fault Refusal :=
  .next (s.givePacket op (Packet.ofFields 0x3 cn d0 d1 d2))

/-- `CIN_SYSEX_START`, CIN 0x4 (R61). -/
def execCinSysexStart (op : PacketOp) (cn : Cable) (d0 d1 d2 : Byte) (s : State) :
    Host.Outcome State Fault Refusal :=
  .next (s.givePacket op (Packet.ofFields 0x4 cn d0 d1 d2))

/-- `CIN_SYSEX_END_1`, CIN 0x5 (R62). -/
def execCinSysexEnd1 (op : PacketOp) (cn : Cable) (d0 d1 d2 : Byte) (s : State) :
    Host.Outcome State Fault Refusal :=
  .next (s.givePacket op (Packet.ofFields 0x5 cn d0 d1 d2))

/-- `CIN_SYSEX_END_2`, CIN 0x6 (R63). -/
def execCinSysexEnd2 (op : PacketOp) (cn : Cable) (d0 d1 d2 : Byte) (s : State) :
    Host.Outcome State Fault Refusal :=
  .next (s.givePacket op (Packet.ofFields 0x6 cn d0 d1 d2))

/-- `CIN_SYSEX_END_3`, CIN 0x7 (R64). -/
def execCinSysexEnd3 (op : PacketOp) (cn : Cable) (d0 d1 d2 : Byte) (s : State) :
    Host.Outcome State Fault Refusal :=
  .next (s.givePacket op (Packet.ofFields 0x7 cn d0 d1 d2))

/-- `CIN_NOTE_OFF`, CIN 0x8 (R65). -/
def execCinNoteOff (op : PacketOp) (cn : Cable) (d0 d1 d2 : Byte) (s : State) :
    Host.Outcome State Fault Refusal :=
  .next (s.givePacket op (Packet.ofFields 0x8 cn d0 d1 d2))

/-- `CIN_NOTE_ON`, CIN 0x9 (R66). -/
def execCinNoteOn (op : PacketOp) (cn : Cable) (d0 d1 d2 : Byte) (s : State) :
    Host.Outcome State Fault Refusal :=
  .next (s.givePacket op (Packet.ofFields 0x9 cn d0 d1 d2))

/-- `CIN_POLY_PRESSURE`, CIN 0xA (R67). -/
def execCinPolyPressure (op : PacketOp) (cn : Cable) (d0 d1 d2 : Byte) (s : State) :
    Host.Outcome State Fault Refusal :=
  .next (s.givePacket op (Packet.ofFields 0xA cn d0 d1 d2))

/-- `CIN_CONTROL_CHANGE`, CIN 0xB (R68). -/
def execCinControlChange (op : PacketOp) (cn : Cable) (d0 d1 d2 : Byte) (s : State) :
    Host.Outcome State Fault Refusal :=
  .next (s.givePacket op (Packet.ofFields 0xB cn d0 d1 d2))

/-- `CIN_PROGRAM_CHANGE`, CIN 0xC (R69). -/
def execCinProgramChange (op : PacketOp) (cn : Cable) (d0 d1 d2 : Byte) (s : State) :
    Host.Outcome State Fault Refusal :=
  .next (s.givePacket op (Packet.ofFields 0xC cn d0 d1 d2))

/-- `CIN_CHANNEL_PRESSURE`, CIN 0xD (R70). -/
def execCinChannelPressure (op : PacketOp) (cn : Cable) (d0 d1 d2 : Byte) (s : State) :
    Host.Outcome State Fault Refusal :=
  .next (s.givePacket op (Packet.ofFields 0xD cn d0 d1 d2))

/-- `CIN_PITCH_BEND`, CIN 0xE (R71). -/
def execCinPitchBend (op : PacketOp) (cn : Cable) (d0 d1 d2 : Byte) (s : State) :
    Host.Outcome State Fault Refusal :=
  .next (s.givePacket op (Packet.ofFields 0xE cn d0 d1 d2))

/-- `CIN_SINGLE_BYTE`, CIN 0xF (R72). -/
def execCinSingleByte (op : PacketOp) (cn : Cable) (d0 d1 d2 : Byte) (s : State) :
    Host.Outcome State Fault Refusal :=
  .next (s.givePacket op (Packet.ofFields 0xF cn d0 d1 d2))

end Sys2Proof.Machine
end

