-- ==== Sys2Proof/Machine/Dispatch.lean ====
section
/-! DEFINITION. One arm per row of spec/opcode_table.json. -/

namespace Sys2Proof.Machine

def exec (i : Instr) (s : State) : Host.Outcome State Fault Refusal :=
  match i with
  | .reset => Sys2Proof.Machine.execReset s
  | .pcFeed c b => Sys2Proof.Machine.execPcFeed c b s
  | .pcUnpack p => Sys2Proof.Machine.execPcUnpack p s
  | .pcRxPacket p => Sys2Proof.Machine.execPcRxPacket p s
  | .sxAppend1 c b => Sys2Proof.Machine.execSxAppend1 c b s
  | .sxAppend c bytes => Sys2Proof.Machine.execSxAppend c bytes s
  | .sxScanAbort c bytes => Sys2Proof.Machine.execSxScanAbort c bytes s
  | .sxReset c => Sys2Proof.Machine.execSxReset c s
  | .cfWriteCmd header payload => Sys2Proof.Machine.execCfWriteCmd header payload s
  | .cfDrain k => Sys2Proof.Machine.execCfDrain k s
  | .cfRxByte b => Sys2Proof.Machine.execCfRxByte b s
  | .cinReserved0 op cn d0 d1 d2 => Sys2Proof.Machine.execCinReserved0 op cn d0 d1 d2 s
  | .cinReserved1 op cn d0 d1 d2 => Sys2Proof.Machine.execCinReserved1 op cn d0 d1 d2 s
  | .cinSyscom2 op cn d0 d1 d2 => Sys2Proof.Machine.execCinSyscom2 op cn d0 d1 d2 s
  | .cinSyscom3 op cn d0 d1 d2 => Sys2Proof.Machine.execCinSyscom3 op cn d0 d1 d2 s
  | .cinSysexStart op cn d0 d1 d2 => Sys2Proof.Machine.execCinSysexStart op cn d0 d1 d2 s
  | .cinSysexEnd1 op cn d0 d1 d2 => Sys2Proof.Machine.execCinSysexEnd1 op cn d0 d1 d2 s
  | .cinSysexEnd2 op cn d0 d1 d2 => Sys2Proof.Machine.execCinSysexEnd2 op cn d0 d1 d2 s
  | .cinSysexEnd3 op cn d0 d1 d2 => Sys2Proof.Machine.execCinSysexEnd3 op cn d0 d1 d2 s
  | .cinNoteOff op cn d0 d1 d2 => Sys2Proof.Machine.execCinNoteOff op cn d0 d1 d2 s
  | .cinNoteOn op cn d0 d1 d2 => Sys2Proof.Machine.execCinNoteOn op cn d0 d1 d2 s
  | .cinPolyPressure op cn d0 d1 d2 => Sys2Proof.Machine.execCinPolyPressure op cn d0 d1 d2 s
  | .cinControlChange op cn d0 d1 d2 => Sys2Proof.Machine.execCinControlChange op cn d0 d1 d2 s
  | .cinProgramChange op cn d0 d1 d2 => Sys2Proof.Machine.execCinProgramChange op cn d0 d1 d2 s
  | .cinChannelPressure op cn d0 d1 d2 => Sys2Proof.Machine.execCinChannelPressure op cn d0 d1 d2 s
  | .cinPitchBend op cn d0 d1 d2 => Sys2Proof.Machine.execCinPitchBend op cn d0 d1 d2 s
  | .cinSingleByte op cn d0 d1 d2 => Sys2Proof.Machine.execCinSingleByte op cn d0 d1 d2 s
  | .data op c v => Sys2Proof.Machine.execData op c v s
  | .stNoteOff op c n => Sys2Proof.Machine.execStNoteOff op c n s
  | .stNoteOn op c n => Sys2Proof.Machine.execStNoteOn op c n s
  | .stPolyPressure op c n => Sys2Proof.Machine.execStPolyPressure op c n s
  | .stControlChange op c n => Sys2Proof.Machine.execStControlChange op c n s
  | .stProgramChange op c n => Sys2Proof.Machine.execStProgramChange op c n s
  | .stChannelPressure op c n => Sys2Proof.Machine.execStChannelPressure op c n s
  | .stPitchBend op c n => Sys2Proof.Machine.execStPitchBend op c n s
  | .stSysexStart op c => Sys2Proof.Machine.execStSysexStart op c s
  | .stSyscomF1 op c => Sys2Proof.Machine.execStSyscomF1 op c s
  | .stSyscomF2 op c => Sys2Proof.Machine.execStSyscomF2 op c s
  | .stSyscomF3 op c => Sys2Proof.Machine.execStSyscomF3 op c s
  | .stSingleF4 op c => Sys2Proof.Machine.execStSingleF4 op c s
  | .stSingleF5 op c => Sys2Proof.Machine.execStSingleF5 op c s
  | .stSingleF6 op c => Sys2Proof.Machine.execStSingleF6 op c s
  | .stEox op c => Sys2Proof.Machine.execStEox op c s
  | .stRealtime op c r => Sys2Proof.Machine.execStRealtime op c r s
  | .requestDevDesc payload => Sys2Proof.Machine.execRequestDevDesc payload s
  | .returnDevDesc payload => Sys2Proof.Machine.execReturnDevDesc payload s
  | .requestDevStringIdxs payload => Sys2Proof.Machine.execRequestDevStringIdxs payload s
  | .returnDevStringIdxs payload => Sys2Proof.Machine.execReturnDevStringIdxs payload s
  | .requestDevLangids payload => Sys2Proof.Machine.execRequestDevLangids payload s
  | .returnDevLangids payload => Sys2Proof.Machine.execReturnDevLangids payload s
  | .requestDevString payload => Sys2Proof.Machine.execRequestDevString payload s
  | .returnDevString payload => Sys2Proof.Machine.execReturnDevString payload s
  | .resynchronize payload => Sys2Proof.Machine.execResynchronize payload s
  | .requestConfDesc0 payload => Sys2Proof.Machine.execRequestConfDesc0 payload s
  | .returnConfDesc0 payload => Sys2Proof.Machine.execReturnConfDesc0 payload s
  | .requestConfDesc1 payload => Sys2Proof.Machine.execRequestConfDesc1 payload s
  | .returnConfDesc1 payload => Sys2Proof.Machine.execReturnConfDesc1 payload s
  | .requestConfDesc2 payload => Sys2Proof.Machine.execRequestConfDesc2 payload s
  | .returnConfDesc2 payload => Sys2Proof.Machine.execReturnConfDesc2 payload s
  | .navButtonStatus payload => Sys2Proof.Machine.execNavButtonStatus payload s
  | .activeMcCable payload => Sys2Proof.Machine.execActiveMcCable payload s
  | .chanButtonMode payload => Sys2Proof.Machine.execChanButtonMode payload s
  | .midiData payload => Sys2Proof.Machine.execMidiData payload s

end Sys2Proof.Machine
end

