-- ==== Sys2Proof/Machine/Step.lean ====
section
/-! DEFINITION. One step of the block: one whole operation of the environment's choosing (spec R9, R43, R44). -/

namespace Sys2Proof.Machine

/-- One step: the next request is decoded and its operation executed. A request that decodes to nothing is refused at
the boundary (R117). While the environment issues no operation nothing changes (R200). -/
def step (s : State) : Host.Outcome State Fault Refusal :=
  match s.fetch with
  | none => .next s
  | some (request, t) =>
    match decode request with
    | .ok i => exec i t
    | .error why => .refused (.undecodable why)

/-- The instruction of a word of spec/opcode_table.json issued as the next request. A width that the table does not have
leaves the state as it is. -/
def State.withFetchWord (s : State) (nbits w : Nat) : State :=
  match tableRequest nbits w with
  | some request => s.request request
  | none => s

end Sys2Proof.Machine
end

