-- ==== Sys2Proof/Safety.lean ====
section
/-! DEFINITION. What the statements speak of: the invariants the spec gives the state (R17, R22, R28, R29), which parts of
the state have a meaning (R13, R15, R19, R29, U6), runs of operations and what they return, well-formed MIDI streams
(R138), and the frames an instruction sends. -/

namespace Sys2Proof.Machine

/-! ### Invariants -/

/-- R17: what holds of `cf[c]` between operations; and, as R121 sets the two together, the expected size of a packet is
the number of bytes of its CIN (R56). -/
abbrev CableFrame.Inv (F : CableFrame) (c : Cable) : Prop :=
  F.filled ≠ 3 ∧
  (F.filled ≠ 0 →
    (F.expectedSize = 2 ∨ F.expectedSize = 3) ∧
    F.filled < F.expectedSize ∧
    Packet.cable F.packet = c ∧
    Packet.cin F.packet ∈ ([0x2, 0x3, 0x4, 0x8, 0x9, 0xA, 0xB, 0xC, 0xD, 0xE] : List Nibble) ∧
    nbytes (Packet.cin F.packet) = some F.expectedSize.toNat ∧
    (F.filled = 1 → F.packet.b2 = 0x00) ∧
    F.packet.b3 = 0x00 ∧
    (Packet.cin F.packet = 0x4 ↔ F.inSysex = true))

/-- R22: what holds of `sx[c]` between operations; (a) is in the type of `length`. -/
abbrev SysexBuffer.Inv (S : SysexBuffer) : Prop :=
  (S.isComplete = false → S.length.val ≤ 2047) ∧
  (0 < S.length.val → Memory.read S.bytes 0 = 0xF0) ∧
  (∀ i < S.length.val, Memory.read S.bytes i = 0xF7 → i + 1 = S.length.val) ∧
  (S.length.val = 2048 → Memory.read S.bytes 2047 = 0xF7) ∧
  (S.droppedCount ≠ 0 → 2047 ≤ S.length.val) ∧
  (∀ i < S.length.val, Memory.read S.bytes i = 0xF0 → i = 0)

/-- R29, R179: what holds of `rx` between operations. -/
abbrev RxFramer.Inv (rx : RxFramer) : Prop :=
  rx.count ≤ rx.len ∧ (rx.state = .payload → rx.count < rx.len)

/-- The model's byte arrays are in their canonical form. -/
def State.memoryWf (s : State) : Prop :=
  (∀ c, Memory.wf 2048 (s.sysex c).bytes = true) ∧ Memory.wf 255 s.rx.payload = true

/-- The invariants of every part of the state (R17, R22, R28, R29). -/
def State.Inv (s : State) : Prop :=
  (∀ c, (s.cable c).Inv c) ∧ (∀ c, (s.sysex c).Inv) ∧ s.rx.Inv ∧ s.txq.length ≤ Config.txqCapacity

/-! ### What has a meaning -/

/-- Two frames of a cable that agree on everything that has a meaning: `packet` and `expected_size` have none while
`filled == 0` (R13, R15). -/
def CableFrame.SameMeaning (F G : CableFrame) : Prop :=
  F.filled = G.filled ∧ F.inSysex = G.inSysex ∧
  (F.filled ≠ 0 → F.packet = G.packet ∧ F.expectedSize = G.expectedSize)

/-- Two accumulators that agree on everything that has a meaning: `bytes[i]` has none for `i >= length` (R19). -/
def SysexBuffer.SameMeaning (S T : SysexBuffer) : Prop :=
  S.length = T.length ∧ S.droppedCount = T.droppedCount ∧
  ∀ i < S.length.val, Memory.read S.bytes i = Memory.read T.bytes i

/-- Two receive framers that agree on everything that has a meaning: in state `HDR` nothing else has one, in state `LEN`
only `header` has, and `payload[i]` has none for `i >= count` (R29). -/
def RxFramer.SameMeaning (x y : RxFramer) : Prop :=
  x.state = y.state ∧
  (x.state ≠ .hdr → x.header = y.header) ∧
  (x.state = .payload → x.len = y.len ∧ x.count = y.count ∧
    ∀ i < x.count.toNat, Memory.read x.payload i = Memory.read y.payload i)

/-- Two states that agree on everything that has a meaning for a later operation. -/
def State.SameMeaning (s t : State) : Prop :=
  (∀ c, (s.cable c).SameMeaning (t.cable c)) ∧ (∀ c, (s.sysex c).SameMeaning (t.sysex c)) ∧
  s.rx.SameMeaning t.rx ∧ s.framingErrCount = t.framingErrCount ∧ s.txDropCount = t.txDropCount ∧
  s.txq = t.txq ∧ s.inbox = t.inbox ∧ s.draws = t.draws

/-! ### States after an operation -/

/-- The state after `PC.FEED` has begun a packet with a first byte: `packet = [(c << 4) | cin, b, 0x00, 0x00]`,
`filled = 1`, and the result is `None` without an event (R123 to R128). -/
def State.began (s : State) (c : Cable) (b : Byte) (cin : Nibble) (size : BitVec 2) (inSysex : Bool) : State :=
  { s.setCable c ⟨⟨joinNibbles c cin, b, 0x00, 0x00⟩, 1, size, inSysex⟩ with
    result := .packet none, events := [] }

/-- The state after `PC.FEED` has returned the packet of a one-byte message, without an event (R129, R130). -/
def State.single (s : State) (c : Cable) (b : Byte) (cin : Nibble) : State :=
  { s.setCable c ⟨⟨joinNibbles c cin, b, 0x00, 0x00⟩, 0, 1, false⟩ with
    result := .packet (some ⟨joinNibbles c cin, b, 0x00, 0x00⟩), events := [] }

/-- `T` is `S` after `bytes[i] <- b; length <- i + 1` and nothing else (R149 to R152). -/
def SysexBuffer.Stored (S T : SysexBuffer) (i : Nat) (b : Byte) : Prop :=
  T.length.val = i + 1 ∧ T.droppedCount = S.droppedCount ∧ Memory.read T.bytes i = b ∧
  ∀ k ≠ i, Memory.read T.bytes k = Memory.read S.bytes k

/-- A SysEx in progress: something is stored and the last byte is not 0xF7 (R20). -/
abbrev SysexBuffer.InProgress (S : SysexBuffer) : Prop := 0 < S.length.val ∧ S.isComplete = false

/-! ### Runs -/

/-- The outcome of one operation as its caller sees it: the result and the events (R187). -/
abbrev Seen := OpResult × List Event

/-- Operations executed one after another, with what each returned; `none` if one of them stops. -/
def runOps : List Instr → State → Option (List Seen × State)
  | [], s => some ([], s)
  | i :: rest, s =>
    match exec i s with
    | .next t =>
      match runOps rest t with
      | some (seen, u) => some ((t.result, t.events) :: seen, u)
      | none => none
    | .fault _ => none
    | .refused _ => none

/-- The packets that `PC.FEED` returned in a run, in order. -/
def packetsOf (seen : List Seen) : List Packet :=
  seen.filterMap fun o =>
    match o.1 with
    | .packet r => r
    | _ => none

/-- The messages that `PC.RX_PACKET` returned in a run, in order. -/
def messagesOf (seen : List Seen) : List Message :=
  seen.filterMap fun o =>
    match o.1 with
    | .message r => r
    | _ => none

/-- The frames that `CF.RX_BYTE` returned in a run, in order. -/
def framesOf (seen : List Seen) : List Frame :=
  seen.filterMap fun o =>
    match o.1 with
    | .frame r => r
    | _ => none

/-- The bytes that `CF.DRAIN` returned in a run, in order. -/
def drainedOf (seen : List Seen) : List Byte :=
  seen.flatMap fun o =>
    match o.1 with
    | .bytes r => r
    | _ => []

/-- The bytes that `PC.UNPACK` takes from a packet, none from one it discards. -/
def unpackedBytes (p : Packet) : List Byte :=
  match Packet.unpack p with
  | some u => u.bytes
  | none => []

/-! ### MIDI streams -/

/-- A data byte, 0x00 to 0x7F (R73). -/
abbrev IsData (b : Byte) : Prop := b < 0x80

/-- One message of a well-formed byte sequence (R138). -/
inductive MessageForm : List Byte → Prop
  | voice3 (s a b : Byte) : ((0x80 ≤ s ∧ s ≤ 0xBF) ∨ (0xE0 ≤ s ∧ s ≤ 0xEF)) → IsData a → IsData b →
      MessageForm [s, a, b]
  | voice2 (s a : Byte) : 0xC0 ≤ s → s ≤ 0xDF → IsData a → MessageForm [s, a]
  | common2 (s a : Byte) : s = 0xF1 ∨ s = 0xF3 → IsData a → MessageForm [s, a]
  | common3 (a b : Byte) : IsData a → IsData b → MessageForm [0xF2, a, b]
  | single (s : Byte) : s = 0xF4 ∨ s = 0xF5 ∨ s = 0xF6 ∨ 0xF8 ≤ s → MessageForm [s]
  | sysex (body : List Byte) : (∀ b ∈ body, IsData b) → MessageForm (0xF0 :: (body ++ [0xF7]))

/-- A counter that has been incremented `n` times from 0 (R27). -/
def saturated (n : Nat) : Counter := BitVec.ofNat 32 (min n (2 ^ 32 - 1))

/-- What the accumulator keeps of a SysEx (R159): all of it up to 2048 bytes, else its first 2047 bytes and 0xF7. -/
def kept (m : List Byte) : List Byte := if m.length ≤ 2048 then m else m.take 2047 ++ [0xF7]

/-- The message that a well-formed message is delivered as (R170). -/
def delivered (c : Cable) (m : List Byte) : Message :=
  if m.head? = some 0xF0 then .sysex c (kept m) (saturated (m.length - 2048)) else .short c m

/-! ### Frames sent -/

/-- The header and payload of the frame that an instruction gives to `CF.WRITE_CMD`, if it is one that does. -/
def sentFrame : Instr → Option Frame
  | .cfWriteCmd header payload => some ⟨header, payload⟩
  | .requestDevDesc payload => some ⟨0x40, payload⟩
  | .returnDevDesc payload => some ⟨0x41, payload⟩
  | .requestDevStringIdxs payload => some ⟨0x42, payload⟩
  | .returnDevStringIdxs payload => some ⟨0x43, payload⟩
  | .requestDevLangids payload => some ⟨0x44, payload⟩
  | .returnDevLangids payload => some ⟨0x45, payload⟩
  | .requestDevString payload => some ⟨0x46, payload⟩
  | .returnDevString payload => some ⟨0x47, payload⟩
  | .resynchronize payload => some ⟨0x48, payload⟩
  | .requestConfDesc0 payload => some ⟨0x49, payload⟩
  | .returnConfDesc0 payload => some ⟨0x4A, payload⟩
  | .requestConfDesc1 payload => some ⟨0x4B, payload⟩
  | .returnConfDesc1 payload => some ⟨0x4C, payload⟩
  | .requestConfDesc2 payload => some ⟨0x4D, payload⟩
  | .returnConfDesc2 payload => some ⟨0x4E, payload⟩
  | .navButtonStatus payload => some ⟨0x50, payload⟩
  | .activeMcCable payload => some ⟨0x51, payload⟩
  | .chanButtonMode payload => some ⟨0x52, payload⟩
  | .midiData payload => some ⟨Config.hdrMidiData, payload⟩
  | _ => none

/-- The frames that a run's instructions gave to `CF.WRITE_CMD` and that the queue accepted, in order. -/
def acceptedFrames : List Instr → List Seen → List Frame
  | i :: is, o :: os =>
    match sentFrame i, o.1 with
    | some frame, .write .ok => frame :: acceptedFrames is os
    | _, _ => acceptedFrames is os
  | _, _ => []

/-- The bytes of frames on the wire, one after another (R40). -/
def wireBytes (frames : List Frame) : List Byte := frames.flatMap fun f => encodeFrame f.header f.payload

end Sys2Proof.Machine
end

