-- ==== Sys2Proof/Certificates/Slice0/Obligations.lean ====
section
/-! DEFINITION. The statements for the provers, in the order of OBLIGATIONS.json. -/

open Sys2Proof Sys2Proof.Machine

/-! ### Requests and the step -/

/-- Decoding the encoding of a well-formed instruction gives the instruction back, with every operand at every value.
The layout of an `OPSEL` request's operand bytes is the model's (notes/assumptions/2.md). -/
def Obligations.DecodeOfEncode : Prop :=
  ∀ i, WellFormed i = true → decode (encode i) = .ok i

/-- What a request decodes to is well formed. -/
def Obligations.DecodedIsWellFormed : Prop :=
  ∀ r i, decode r = .ok i → WellFormed i = true

/-- A few requests written out from the spec's encodings decode to their rows; the last one's cable bits are the model's
(notes/assumptions/2.md). -/
def Obligations.WrittenOutRequestsDecode : Prop :=
  decode (.packet .unpack [0x3C, 0xC5, 0x07, 0x00]) = .ok (.cinProgramChange .unpack 3 0xC5 0x07 0x00) ∧
  decode (.midi .feed 2 [0x9A]) = .ok (.stNoteOn .feed 2 0xA) ∧
  decode (.midi .append1 0 [0xFE]) = .ok (.stRealtime .append1 0 6) ∧
  decode (.frame [0x46, 0x03, 0x02, 0x09, 0x04]) = .ok (.requestDevString [0x02, 0x09, 0x04]) ∧
  decode (.opsel [0x51, 0x90]) = .ok (.pcFeed 5 0x90)

/-- Every packet, every stream byte and every frame of at most 255 payload bytes is accepted, and its row does what the
operation it is given to does: no packet, byte or header is refused or treated apart (what a row is given to:
notes/assumptions/4.md, 5.md, 9.md). -/
def Obligations.EveryDatumReachesItsOperation : Prop :=
  (∀ p, ∃ i, decode (.packet .unpack (packetBytes p)) = .ok i ∧ ∀ s, exec i s = exec (.pcUnpack p) s) ∧
  (∀ p, ∃ i, decode (.packet .rxPacket (packetBytes p)) = .ok i ∧ ∀ s, exec i s = exec (.pcRxPacket p) s) ∧
  (∀ c b, ∃ i, decode (.midi .feed c [b]) = .ok i ∧ ∀ s, exec i s = exec (.pcFeed c b) s) ∧
  (∀ c b, ∃ i, decode (.midi .append1 c [b]) = .ok i ∧ ∀ s, exec i s = exec (.sxAppend1 c b) s) ∧
  (∀ header payload, payload.length ≤ 255 →
    ∃ i, decode (.frame (encodeFrame header payload)) = .ok i ∧ ∀ s, exec i s = exec (.cfWriteCmd header payload) s)

/-- `OPSEL` 0xB to 0xF is refused at the boundary, whatever follows it (U12); the form of the refusal is the model's
(notes/assumptions/12.md). -/
def Obligations.UnassignedOpselRefused : Prop :=
  ∀ (s : State) (code cable : Nibble) (operands : List Byte) (rest : List Request),
    0xB ≤ code → s.inbox = .opsel (joinNibbles cable code :: operands) :: rest →
    step s = .refused (.undecodable .unassignedOpsel)

/-- A step runs the instruction that the next request decodes to. Around `exec` it takes the request out of the inbox
and advances the draw counter, which free values are applied to; nothing else (notes/assumptions/1.md, 8.md). -/
def Obligations.StepRunsTheDecodedInstruction : Prop :=
  ∀ (s : State) (r : Request) (rest : List Request) (i : Instr),
    s.inbox = r :: rest → decode r = .ok i →
    step s = exec i { s with inbox := rest, draws := s.draws + 1 }

/-- While the environment issues no operation a step changes nothing. That an idle step is a step at all is the model's
choice (notes/assumptions/11.md). -/
def Obligations.IdleStepChangesNothing : Prop :=
  ∀ s : State, s.inbox = [] → step s = .next s

/-- Every well-formed instruction answers a next state from every state, reachable or not, and touches neither the
inbox nor the draw counter, the model's own (notes/assumptions/1.md, 8.md, 24.md). -/
def Obligations.EveryOperationAnswers : Prop :=
  ∀ (i : Instr) (s : State), WellFormed i = true →
    ∃ t, exec i s = .next t ∧ t.inbox = s.inbox ∧ t.draws = s.draws

/-! ### Reset -/

/-- The machine right after reset. The contents of the byte arrays, which R36 leaves unspecified, are not spoken of. -/
def Obligations.ResetState : Prop :=
  (∀ c, State.reset.cable c = ⟨⟨0x00, 0x00, 0x00, 0x00⟩, 0, 0, false⟩) ∧
  (∀ c, (State.reset.sysex c).length = 0 ∧ (State.reset.sysex c).droppedCount = 0) ∧
  State.reset.framingErrCount = 0 ∧ State.reset.txDropCount = 0 ∧ State.reset.txq = [] ∧
  State.reset.rx.state = .hdr ∧ State.reset.rx.header = 0 ∧ State.reset.rx.len = 0 ∧ State.reset.rx.count = 0

/-- R201: `RESET` sets every field but the byte arrays, which it leaves as they are, and returns nothing. That it keeps the
model's own inbox and draw counter is the model's choice (notes/assumptions/24.md). -/
def Obligations.ResetOperation : Prop :=
  ∀ s : State, ∃ t, exec .reset s = .next t ∧
    (∀ c, t.cable c = ⟨⟨0x00, 0x00, 0x00, 0x00⟩, 0, 0, false⟩) ∧
    (∀ c, t.sysex c = ⟨(s.sysex c).bytes, 0, 0⟩) ∧
    t.framingErrCount = 0 ∧ t.txDropCount = 0 ∧ t.txq = [] ∧
    t.rx = ⟨.hdr, 0, 0, 0, s.rx.payload⟩ ∧
    t.result = .noResult ∧ t.events = [] ∧ t.inbox = s.inbox ∧ t.draws = s.draws

/-! ### PC.FEED -/

/-- R122: a stray data byte changes the counter only. -/
def Obligations.FeedStrayData : Prop :=
  ∀ (s : State) (c : Cable) (b : Byte),
    (s.cable c).filled = 0 → b < 0x80 → (s.cable c).inSysex = false →
    exec (.pcFeed c b) s =
      .next { s with framingErrCount := satInc s.framingErrCount, result := .packet none, events := [.strayData] }

/-- R123: a data byte while a SysEx is open starts a continuation packet. -/
def Obligations.FeedContinuesSysex : Prop :=
  ∀ (s : State) (c : Cable) (b : Byte),
    (s.cable c).filled = 0 → b < 0x80 → (s.cable c).inSysex = true →
    exec (.pcFeed c b) s = .next (s.began c b 0x4 3 true)

/-- R124 to R128: the status bytes that start a packet of two or three bytes. -/
def Obligations.FeedStartsAPacket : Prop :=
  ∀ (s : State) (c : Cable) (b : Byte), (s.cable c).filled = 0 →
    ((0x80 ≤ b ∧ b ≤ 0xBF) ∨ (0xE0 ≤ b ∧ b ≤ 0xEF) →
      exec (.pcFeed c b) s = .next (s.began c b (hiNibble b) 3 false)) ∧
    (0xC0 ≤ b ∧ b ≤ 0xDF → exec (.pcFeed c b) s = .next (s.began c b (hiNibble b) 2 false)) ∧
    (b = 0xF0 → exec (.pcFeed c b) s = .next (s.began c b 0x4 3 true)) ∧
    (b = 0xF1 ∨ b = 0xF3 → exec (.pcFeed c b) s = .next (s.began c b 0x2 2 false)) ∧
    (b = 0xF2 → exec (.pcFeed c b) s = .next (s.began c b 0x3 3 false))

/-- R129, R130: the one-byte messages and a lone EOX are complete at once. -/
def Obligations.FeedOneByteMessage : Prop :=
  ∀ (s : State) (c : Cable) (b : Byte), (s.cable c).filled = 0 →
    (b = 0xF4 ∨ b = 0xF5 ∨ b = 0xF6 ∨ 0xF8 ≤ b → exec (.pcFeed c b) s = .next (s.single c b 0xF)) ∧
    (b = 0xF7 → exec (.pcFeed c b) s = .next (s.single c b 0x5))

/-- R132: a data byte is stored at `packet[1 + filled]`, and the packet is returned when it has all its bytes. -/
def Obligations.FeedStoresADataByte : Prop :=
  ∀ (s : State) (c : Cable) (F : CableFrame) (b : Byte),
    s.cable c = F → F.filled ≠ 0 → F.filled < F.expectedSize → F.filled ≤ 2 → b < 0x80 →
    ∃ p, (F.filled = 1 → p = { F.packet with b2 := b }) ∧ (F.filled = 2 → p = { F.packet with b3 := b }) ∧
      (F.filled + 1 = F.expectedSize → exec (.pcFeed c b) s =
        .next { s.setCable c { F with packet := p, filled := 0 } with result := .packet (some p), events := [] }) ∧
      (F.filled + 1 ≠ F.expectedSize → exec (.pcFeed c b) s =
        .next { s.setCable c { F with packet := p, filled := F.filled + 1 } with
          result := .packet none, events := [] })

/-- R133: an EOX inside a SysEx packet ends it with CIN 0x6 or 0x7. -/
def Obligations.FeedEoxEndsASysexPacket : Prop :=
  ∀ (s : State) (c : Cable) (F : CableFrame),
    s.cable c = F → F.filled ≠ 0 → F.filled < F.expectedSize → loNibble F.packet.b0 = 0x4 →
    ∃ p, (F.filled = 1 → p = { F.packet with b0 := joinNibbles c 0x6, b2 := 0xF7 }) ∧
      (F.filled = 2 → p = { F.packet with b0 := joinNibbles c 0x7, b3 := 0xF7 }) ∧
      exec (.pcFeed c 0xF7) s =
        .next { s.setCable c { F with packet := p, filled := 0, inSysex := false } with
          result := .packet (some p), events := [] }

/-- R134: any other status byte inside a packet discards it and is then handled as a first byte. -/
def Obligations.FeedStatusInsideAPacket : Prop :=
  ∀ (s : State) (c : Cable) (F : CableFrame) (b : Byte),
    s.cable c = F → F.filled ≠ 0 → F.filled < F.expectedSize → 0x80 ≤ b →
    ¬(b = 0xF7 ∧ loNibble F.packet.b0 = 0x4) →
    ∃ t, exec (.pcFeed c b) (s.setCable c { F with filled := 0, inSysex := false }) = .next t ∧ t.events = [] ∧
      exec (.pcFeed c b) s =
        .next { t with framingErrCount := satInc s.framingErrCount, events := [.midPacketStatus] }

/-- R135: the overflow guard, for any byte. -/
def Obligations.FeedOverflowGuard : Prop :=
  ∀ (s : State) (c : Cable) (F : CableFrame) (b : Byte),
    s.cable c = F → F.filled ≠ 0 → F.expectedSize ≤ F.filled ∨ F.filled = 3 →
    exec (.pcFeed c b) s =
      .next { s.setCable c { F with filled := 0 } with
        framingErrCount := satInc s.framingErrCount, result := .packet none, events := [.packetOverflow] }

/-- R120, R139: `PC.FEED` writes its own cable's frame and `framing_err_count`, nothing else, and emits at most one
event (the inbox and the draw counter are the model's: notes/assumptions/1.md, 8.md). -/
def Obligations.FeedFrame : Prop :=
  ∀ (s t : State) (c : Cable) (b : Byte), exec (.pcFeed c b) s = .next t →
    (∀ d, d ≠ c → t.cable d = s.cable d) ∧ t.sx = s.sx ∧ t.txq = s.txq ∧ t.rx = s.rx ∧
    t.txDropCount = s.txDropCount ∧ t.inbox = s.inbox ∧ t.draws = s.draws ∧ t.events.length ≤ 1

/-- R138: a well-formed byte sequence fed byte by byte comes back from the packets, unpacked. -/
def Obligations.StreamRoundTrip : Prop :=
  ∀ (s : State) (c : Cable) (messages : List (List Byte)),
    (∀ m ∈ messages, MessageForm m) → (s.cable c).filled = 0 → (s.cable c).inSysex = false →
    ∃ seen t, runOps (messages.flatten.map (Instr.pcFeed c)) s = some (seen, t) ∧
      (∀ o ∈ seen, o.2 = []) ∧
      (t.cable c).filled = 0 ∧ (t.cable c).inSysex = false ∧
      (packetsOf seen).flatMap unpackedBytes = messages.flatten ∧
      ∀ p ∈ packetsOf seen, ∃ u, Packet.unpack p = some u ∧ u.cable = c

/-- The stream byte rows given to `PC.FEED` at `filled == 0`: each has the CIN and the size of its class (the rows
as operations: notes/assumptions/5.md). -/
def Obligations.ByteRowsFed : Prop :=
  ∀ (s : State) (c : Cable) (n : Nibble) (v : BitVec 7) (r : BitVec 3), (s.cable c).filled = 0 →
    ((s.cable c).inSysex = true → exec (.data .feed c v) s = .next (s.began c (dataByte v) 0x4 3 true)) ∧
    exec (.stNoteOff .feed c n) s = .next (s.began c (joinNibbles 0x8 n) 0x8 3 false) ∧
    exec (.stNoteOn .feed c n) s = .next (s.began c (joinNibbles 0x9 n) 0x9 3 false) ∧
    exec (.stPolyPressure .feed c n) s = .next (s.began c (joinNibbles 0xA n) 0xA 3 false) ∧
    exec (.stControlChange .feed c n) s = .next (s.began c (joinNibbles 0xB n) 0xB 3 false) ∧
    exec (.stProgramChange .feed c n) s = .next (s.began c (joinNibbles 0xC n) 0xC 2 false) ∧
    exec (.stChannelPressure .feed c n) s = .next (s.began c (joinNibbles 0xD n) 0xD 2 false) ∧
    exec (.stPitchBend .feed c n) s = .next (s.began c (joinNibbles 0xE n) 0xE 3 false) ∧
    exec (.stSysexStart .feed c) s = .next (s.began c 0xF0 0x4 3 true) ∧
    exec (.stSyscomF1 .feed c) s = .next (s.began c 0xF1 0x2 2 false) ∧
    exec (.stSyscomF2 .feed c) s = .next (s.began c 0xF2 0x3 3 false) ∧
    exec (.stSyscomF3 .feed c) s = .next (s.began c 0xF3 0x2 2 false) ∧
    exec (.stSingleF4 .feed c) s = .next (s.single c 0xF4 0xF) ∧
    exec (.stSingleF5 .feed c) s = .next (s.single c 0xF5 0xF) ∧
    exec (.stSingleF6 .feed c) s = .next (s.single c 0xF6 0xF) ∧
    exec (.stEox .feed c) s = .next (s.single c 0xF7 0x5) ∧
    exec (.stRealtime .feed c r) s = .next (s.single c (realtimeByte r) 0xF)

/-! ### PC.UNPACK -/

/-- R141 to R143: the CIN alone decides how many data bytes a packet gives, and a reserved one discards it. -/
def Obligations.UnpackByCin : Prop :=
  ∀ (s : State) (p : Packet),
    (loNibble p.b0 ∈ ([0x0, 0x1] : List Nibble) → exec (.pcUnpack p) s =
      .next { s with
        framingErrCount := satInc s.framingErrCount, result := .unpacked none, events := [.reservedCin] }) ∧
    (loNibble p.b0 ∈ ([0x5, 0xF] : List Nibble) → exec (.pcUnpack p) s =
      .next { s with result := .unpacked (some ⟨hiNibble p.b0, loNibble p.b0, [p.b1]⟩), events := [] }) ∧
    (loNibble p.b0 ∈ ([0x2, 0x6, 0xC, 0xD] : List Nibble) → exec (.pcUnpack p) s =
      .next { s with result := .unpacked (some ⟨hiNibble p.b0, loNibble p.b0, [p.b1, p.b2]⟩), events := [] }) ∧
    (loNibble p.b0 ∈ ([0x3, 0x4, 0x7, 0x8, 0x9, 0xA, 0xB, 0xE] : List Nibble) → exec (.pcUnpack p) s =
      .next { s with result := .unpacked (some ⟨hiNibble p.b0, loNibble p.b0, [p.b1, p.b2, p.b3]⟩), events := [] })

/-- The packet rows given to `PC.UNPACK`: each gives the cable, its CIN and its number of valid bytes (the
rows as operations: notes/assumptions/4.md). -/
def Obligations.PacketRowsUnpacked : Prop :=
  ∀ (s : State) (cn : Cable) (d0 d1 d2 : Byte),
    (∀ i ∈ ([.cinReserved0 .unpack cn d0 d1 d2, .cinReserved1 .unpack cn d0 d1 d2] : List Instr),
      exec i s = .next { s with
        framingErrCount := satInc s.framingErrCount, result := .unpacked none, events := [.reservedCin] }) ∧
    (∀ x ∈ ([(.cinSyscom2 .unpack cn d0 d1 d2, 0x2, [d0, d1]), (.cinSyscom3 .unpack cn d0 d1 d2, 0x3, [d0, d1, d2]),
        (.cinSysexStart .unpack cn d0 d1 d2, 0x4, [d0, d1, d2]), (.cinSysexEnd1 .unpack cn d0 d1 d2, 0x5, [d0]),
        (.cinSysexEnd2 .unpack cn d0 d1 d2, 0x6, [d0, d1]), (.cinSysexEnd3 .unpack cn d0 d1 d2, 0x7, [d0, d1, d2]),
        (.cinNoteOff .unpack cn d0 d1 d2, 0x8, [d0, d1, d2]), (.cinNoteOn .unpack cn d0 d1 d2, 0x9, [d0, d1, d2]),
        (.cinPolyPressure .unpack cn d0 d1 d2, 0xA, [d0, d1, d2]),
        (.cinControlChange .unpack cn d0 d1 d2, 0xB, [d0, d1, d2]),
        (.cinProgramChange .unpack cn d0 d1 d2, 0xC, [d0, d1]),
        (.cinChannelPressure .unpack cn d0 d1 d2, 0xD, [d0, d1]),
        (.cinPitchBend .unpack cn d0 d1 d2, 0xE, [d0, d1, d2]),
        (.cinSingleByte .unpack cn d0 d1 d2, 0xF, [d0])] : List (Instr × Nibble × List Byte)),
      exec x.1 s = .next { s with result := .unpacked (some ⟨cn, x.2.1, x.2.2⟩), events := [] })

/-- R146: from a state of R17, unpacking a packet that `PC.FEED` returned gives the cable that was fed and exactly the
bytes that went into the packet: those stored before, unless the byte discarded them, and the byte fed. The invariant is
R17 with notes/assumptions/25.md. -/
def Obligations.UnpackOfAFedPacket : Prop :=
  ∀ (s t : State) (c : Cable) (b : Byte) (p : Packet), (s.cable c).Inv c →
    exec (.pcFeed c b) s = .next t → t.result = .packet (some p) →
    ∃ u, Packet.unpack p = some u ∧ u.cable = c ∧
      u.bytes = (if t.events = [] then
        [(s.cable c).packet.b1, (s.cable c).packet.b2, (s.cable c).packet.b3].take (s.cable c).filled.toNat
        else []) ++ [b]

/-! ### The accumulator -/

/-- R149: the first byte. -/
def Obligations.AppendFirstByte : Prop :=
  ∀ (s : State) (c : Cable) (b : Byte), (s.sysex c).length.val = 0 → Memory.wf 2048 (s.sysex c).bytes = true →
    (b = 0xF0 → ∃ T, (s.sysex c).Stored T 0 0xF0 ∧
      exec (.sxAppend1 c b) s = .next { s.setSysex c T with result := .accum .continuing, events := [] }) ∧
    (b ≠ 0xF0 → exec (.sxAppend1 c b) s =
      .next { s with
        framingErrCount := satInc s.framingErrCount, result := .accum .aborted, events := [.sysexBadStart] })

/-- R150: 0xF0 restarts an accumulation in progress and increments no counter. -/
def Obligations.AppendRestarts : Prop :=
  ∀ (s : State) (c : Cable), (s.sysex c).InProgress → Memory.wf 2048 (s.sysex c).bytes = true →
    ∃ T, SysexBuffer.Stored { s.sysex c with droppedCount := 0 } T 0 0xF0 ∧
      exec (.sxAppend1 c 0xF0) s =
        .next { s.setSysex c T with result := .accum .continuing, events := [.sysexCancelled] }

/-- R151: 0xF7 is stored in the reserved slot and completes the message. The premise `length <= 2047` is R22 (b). -/
def Obligations.AppendEoxCompletes : Prop :=
  ∀ (s : State) (c : Cable), (s.sysex c).InProgress → (s.sysex c).length.val ≤ 2047 →
    Memory.wf 2048 (s.sysex c).bytes = true →
    ∃ T, (s.sysex c).Stored T (s.sysex c).length.val 0xF7 ∧
      exec (.sxAppend1 c 0xF7) s =
        .next { s.setSysex c T with result := .accum (.complete T.length.val), events := [] }

/-- R152 to R154: any other byte, whether or not its bit 7 is set, is stored while there is room, else dropped and
counted. -/
def Obligations.AppendStoresOrDrops : Prop :=
  ∀ (s : State) (c : Cable) (b : Byte), (s.sysex c).InProgress → b ≠ 0xF0 → b ≠ 0xF7 →
    Memory.wf 2048 (s.sysex c).bytes = true →
    ((s.sysex c).length.val ≤ 2046 → ∃ T, (s.sysex c).Stored T (s.sysex c).length.val b ∧
      exec (.sxAppend1 c b) s = .next { s.setSysex c T with result := .accum .continuing, events := [] }) ∧
    ((s.sysex c).length.val = 2047 → exec (.sxAppend1 c b) s =
      .next { s.setSysex c { s.sysex c with droppedCount := satInc (s.sysex c).droppedCount } with
        result := .accum .continuing, events := [.sysexByteDropped] })

/-- R155: a complete message that was not reset refuses every byte and nothing changes. -/
def Obligations.AppendAfterCompleteRefused : Prop :=
  ∀ (s : State) (c : Cable) (b : Byte), (s.sysex c).isComplete = true →
    exec (.sxAppend1 c b) s = .next { s with result := .accum .refused, events := [.appendAfterComplete] }

/-- R156: `SX.APPEND` is `SX.APPEND1` byte by byte, up to the first result that is not `Continuing`. -/
def Obligations.AppendIsAFold : Prop :=
  (∀ (s : State) (c : Cable),
    exec (.sxAppend c []) s = .next { s with result := .accum .continuing, events := [] }) ∧
  ∀ (s : State) (c : Cable) (b : Byte) (bs : List Byte),
    ∃ t, exec (.sxAppend1 c b) s = .next t ∧
      (t.result ≠ .accum .continuing → exec (.sxAppend c (b :: bs)) s = .next t) ∧
      (t.result = .accum .continuing →
        ∃ u, exec (.sxAppend c bs) t = .next u ∧
          exec (.sxAppend c (b :: bs)) s = .next { u with events := t.events ++ u.events })

/-- R157: `SX.SCAN_ABORT`. R157 gives it 1 to 3 bytes; that other lists mean the same is the model's choice
(notes/assumptions/20.md). -/
def Obligations.ScanAbort : Prop :=
  ∀ (s : State) (c : Cable) (bytes : List Byte),
    ((s.sysex c).length.val = 0 →
      exec (.sxScanAbort c bytes) s = .next { s with result := .accum .continuing, events := [] }) ∧
    ((s.sysex c).isComplete = true → exec (.sxScanAbort c bytes) s =
      .next { s with result := .accum .refused, events := [.appendAfterComplete] }) ∧
    ((s.sysex c).InProgress → 0xF7 ∈ bytes →
      exec (.sxScanAbort c bytes) s = exec (.sxAppend1 c 0xF7) s ∧
      ∃ t n, exec (.sxScanAbort c bytes) s = .next t ∧ t.result = .accum (.complete n)) ∧
    ((s.sysex c).InProgress → 0xF7 ∉ bytes → exec (.sxScanAbort c bytes) s =
      .next { s.setSysex c ⟨(s.sysex c).bytes, 0, 0⟩ with
        framingErrCount := satInc s.framingErrCount
        result := .accum .aborted
        events := [.sysexAbortedByMessage] })

/-- R158: `SX.RESET` clears `length` and `dropped_count` in any state and leaves `bytes`. -/
def Obligations.SysexReset : Prop :=
  ∀ (s : State) (c : Cable), exec (.sxReset c) s =
    .next { s.setSysex c ⟨(s.sysex c).bytes, 0, 0⟩ with result := .noResult, events := [] }

/-- The accumulator operations of cable `c`, and `PC.RX_PACKET` of a packet of cable `c`, write `sx[c]` and
`framing_err_count`, nothing else (byte lists of any length: notes/assumptions/20.md; the inbox and the draw counter are the
model's: notes/assumptions/1.md, 8.md). -/
def Obligations.AccumulatorFrame : Prop :=
  ∀ (s t : State) (c : Cable) (b : Byte) (bytes : List Byte) (p : Packet), hiNibble p.b0 = c →
    ∀ i ∈ ([.sxAppend1 c b, .sxAppend c bytes, .sxScanAbort c bytes, .sxReset c, .pcRxPacket p] : List Instr),
      exec i s = .next t →
      (∀ d, d ≠ c → t.sysex d = s.sysex d) ∧ t.cf = s.cf ∧ t.txq = s.txq ∧ t.rx = s.rx ∧
      t.txDropCount = s.txDropCount ∧ t.inbox = s.inbox ∧ t.draws = s.draws

/-- R159: a SysEx of `L` bytes given byte by byte to an idle buffer. The premise on `dropped_count` is R149's "already
0". -/
def Obligations.SysexCapacity : Prop :=
  ∀ (s : State) (c : Cable) (body : List Byte),
    (∀ b ∈ body, b ≠ 0xF0 ∧ b ≠ 0xF7) →
    (s.sysex c).length.val = 0 → (s.sysex c).droppedCount = 0 → Memory.wf 2048 (s.sysex c).bytes = true →
    ∃ seen last t, runOps ((0xF0 :: (body ++ [0xF7])).map (Instr.sxAppend1 c)) s = some (seen ++ [last], t) ∧
      (∀ o ∈ seen, o.1 = .accum .continuing) ∧
      last.1 = .accum (.complete (min (body.length + 2) 2048)) ∧
      (t.sysex c).droppedCount = saturated (body.length + 2 - 2048) ∧
      Memory.copy (t.sysex c).bytes (t.sysex c).length.val = kept (0xF0 :: (body ++ [0xF7]))

/-- The stream byte rows given to `SX.APPEND1` while a message is in progress with room (the rows as operations:
notes/assumptions/5.md). -/
def Obligations.ByteRowsAppended : Prop :=
  ∀ (s : State) (c : Cable) (n : Nibble) (v : BitVec 7) (r : BitVec 3),
    (s.sysex c).InProgress → (s.sysex c).length.val ≤ 2046 → Memory.wf 2048 (s.sysex c).bytes = true →
    (∀ x ∈ ([(.data .append1 c v, dataByte v), (.stNoteOff .append1 c n, joinNibbles 0x8 n),
        (.stNoteOn .append1 c n, joinNibbles 0x9 n), (.stPolyPressure .append1 c n, joinNibbles 0xA n),
        (.stControlChange .append1 c n, joinNibbles 0xB n), (.stProgramChange .append1 c n, joinNibbles 0xC n),
        (.stChannelPressure .append1 c n, joinNibbles 0xD n), (.stPitchBend .append1 c n, joinNibbles 0xE n),
        (.stSyscomF1 .append1 c, 0xF1), (.stSyscomF2 .append1 c, 0xF2), (.stSyscomF3 .append1 c, 0xF3),
        (.stSingleF4 .append1 c, 0xF4), (.stSingleF5 .append1 c, 0xF5), (.stSingleF6 .append1 c, 0xF6),
        (.stRealtime .append1 c r, realtimeByte r)] : List (Instr × Byte)),
      ∃ T, (s.sysex c).Stored T (s.sysex c).length.val x.2 ∧
        exec x.1 s = .next { s.setSysex c T with result := .accum .continuing, events := [] }) ∧
    (∃ T, SysexBuffer.Stored { s.sysex c with droppedCount := 0 } T 0 0xF0 ∧
      exec (.stSysexStart .append1 c) s =
        .next { s.setSysex c T with result := .accum .continuing, events := [.sysexCancelled] }) ∧
    (∃ T, (s.sysex c).Stored T (s.sysex c).length.val 0xF7 ∧
      exec (.stEox .append1 c) s =
        .next { s.setSysex c T with result := .accum (.complete T.length.val), events := [] })

/-! ### PC.RX_PACKET -/

/-- R169: a reserved CIN changes no buffer, not even one with a SysEx in progress. -/
def Obligations.ReceiveReservedCin : Prop :=
  ∀ (s : State) (p : Packet), loNibble p.b0 = 0x0 ∨ loNibble p.b0 = 0x1 →
    exec (.pcRxPacket p) s =
      .next { s with
        framingErrCount := satInc s.framingErrCount, result := .message none, events := [.reservedCin] }

/-- R166: a non-SysEx packet while nothing is being accumulated is a message by itself. -/
def Obligations.ReceiveShortMessage : Prop :=
  ∀ (s : State) (p : Packet) (u : Unpacked), Packet.unpack p = some u →
    (u.cin ∈ ([0x2, 0x3, 0x8, 0x9, 0xA, 0xB, 0xC, 0xD, 0xE, 0xF] : List Nibble) ∨ (u.cin = 0x5 ∧ p.b1 ≠ 0xF7)) →
    (s.sysex u.cable).length.val = 0 →
    exec (.pcRxPacket p) s =
      .next { s with result := .message (some (.short u.cable u.bytes)), events := [] }

/-- R164, R165: a SysEx packet is given to `SX.APPEND`; a completed message is handed off by copy and the buffer reset. -/
def Obligations.ReceiveSysexPacket : Prop :=
  ∀ (s : State) (p : Packet) (u : Unpacked), Packet.unpack p = some u →
    (u.cin = 0x4 ∨ u.cin = 0x6 ∨ u.cin = 0x7 ∨ (u.cin = 0x5 ∧ p.b1 = 0xF7)) →
    ∃ t, exec (.sxAppend u.cable u.bytes) s = .next t ∧
      (∀ n, t.result = .accum (.complete n) → exec (.pcRxPacket p) s =
        .next { t.setSysex u.cable ⟨(t.sysex u.cable).bytes, 0, 0⟩ with
          result := .message (some (.sysex u.cable (Memory.copy (t.sysex u.cable).bytes n)
            (t.sysex u.cable).droppedCount)) }) ∧
      ((∀ n, t.result ≠ .accum (.complete n)) →
        exec (.pcRxPacket p) s = .next { t with result := .message none })

/-- R163, R167: a non-SysEx packet while `sx[c].length > 0` on its cable. With a SysEx in progress the SysEx is discarded,
or ended by an EOX among the packet's bytes; with a complete message that was not reset `SX.SCAN_ABORT` refuses, and the
operation goes on. -/
def Obligations.ReceiveAnomaly : Prop :=
  ∀ (s : State) (p : Packet) (u : Unpacked) (S : SysexBuffer), Packet.unpack p = some u →
    (u.cin ∈ ([0x2, 0x3, 0x8, 0x9, 0xA, 0xB, 0xC, 0xD, 0xE, 0xF] : List Nibble) ∨ (u.cin = 0x5 ∧ p.b1 ≠ 0xF7)) →
    s.sysex u.cable = S →
    (S.InProgress → S.length.val ≤ 2047 → Memory.wf 2048 S.bytes = true →
      (0xF7 ∉ u.bytes → exec (.pcRxPacket p) s =
        .next { s.setSysex u.cable ⟨S.bytes, 0, 0⟩ with
          framingErrCount := satInc s.framingErrCount
          result := .message (some (.short u.cable u.bytes))
          events := [.sysexAbortedByMessage] }) ∧
      (0xF7 ∈ u.bytes → exec (.pcRxPacket p) s =
        .next { s.setSysex u.cable ⟨Memory.write S.bytes S.length.val 0xF7, 0, 0⟩ with
          result := .message (some (.sysex u.cable (Memory.copy S.bytes S.length.val ++ [0xF7]) S.droppedCount))
          events := [.sysexEoxInForeignPacket] })) ∧
    (S.isComplete = true → exec (.pcRxPacket p) s =
      .next { s with result := .message (some (.short u.cable u.bytes)), events := [.appendAfterComplete] })

/-- R170: a well-formed byte sequence fed to one instance comes out of another as exactly its messages, a SysEx of more
than 2048 bytes as R159 keeps it. -/
def Obligations.MessageRoundTrip : Prop :=
  ∀ (s r : State) (c : Cable) (messages : List (List Byte)),
    (∀ m ∈ messages, MessageForm m) →
    (s.cable c).filled = 0 → (s.cable c).inSysex = false →
    (r.sysex c).length.val = 0 → (r.sysex c).droppedCount = 0 → Memory.wf 2048 (r.sysex c).bytes = true →
    ∃ seen t seen' u,
      runOps (messages.flatten.map (Instr.pcFeed c)) s = some (seen, t) ∧
      runOps ((packetsOf seen).map Instr.pcRxPacket) r = some (seen', u) ∧
      messagesOf seen' = messages.map (delivered c) ∧
      ((∀ m ∈ messages, m.head? = some 0xF0 → m.length ≤ 2048) → ∀ o ∈ seen ++ seen', o.2 = []) ∧
      (u.sysex c).length.val = 0

/-! ### The framer -/

/-- R173, R174: a frame enters the queue whole or is dropped whole and counted. -/
def Obligations.WriteCommand : Prop :=
  ∀ (s : State) (header : Byte) (payload : List Byte), payload.length ≤ 255 →
    (s.txq.length + (2 + payload.length) ≤ Config.txqCapacity → exec (.cfWriteCmd header payload) s =
      .next { s with
        txq := s.txq ++ (header :: BitVec.ofNat 8 payload.length :: payload), result := .write .ok, events := [] }) ∧
    (Config.txqCapacity < s.txq.length + (2 + payload.length) → exec (.cfWriteCmd header payload) s =
      .next { s with
        txDropCount := satInc s.txDropCount, result := .write .dropped, events := [.txQueueFull] })

/-- The frame rows given to `CF.WRITE_CMD`: each writes its own header before the length and the payload, or is dropped
whole (the rows as operations: notes/assumptions/9.md). -/
def Obligations.FrameRowsWritten : Prop :=
  ∀ (s : State) (payload : List Byte), payload.length ≤ 255 →
    ∀ x ∈ ([(.requestDevDesc payload, 0x40), (.returnDevDesc payload, 0x41), (.requestDevStringIdxs payload, 0x42),
        (.returnDevStringIdxs payload, 0x43), (.requestDevLangids payload, 0x44), (.returnDevLangids payload, 0x45),
        (.requestDevString payload, 0x46), (.returnDevString payload, 0x47), (.resynchronize payload, 0x48),
        (.requestConfDesc0 payload, 0x49), (.returnConfDesc0 payload, 0x4A), (.requestConfDesc1 payload, 0x4B),
        (.returnConfDesc1 payload, 0x4C), (.requestConfDesc2 payload, 0x4D), (.returnConfDesc2 payload, 0x4E),
        (.navButtonStatus payload, 0x50), (.activeMcCable payload, 0x51), (.chanButtonMode payload, 0x52),
        (.midiData payload, Config.hdrMidiData)] : List (Instr × Byte)),
      (s.txq.length + (2 + payload.length) ≤ Config.txqCapacity → exec x.1 s =
        .next { s with
          txq := s.txq ++ (x.2 :: BitVec.ofNat 8 payload.length :: payload), result := .write .ok, events := [] }) ∧
      (Config.txqCapacity < s.txq.length + (2 + payload.length) → exec x.1 s =
        .next { s with
          txDropCount := satInc s.txDropCount, result := .write .dropped, events := [.txQueueFull] })

/-- The open parameters keep their bounds (R6), and any frame fits in an empty queue (R174). How they are left open:
notes/assumptions/16.md, 17.md. -/
def Obligations.OpenParametersInBounds : Prop :=
  257 ≤ Config.txqCapacity ∧ Config.hdrMidiData ∉ Config.assignedHeaders ∧
  ∀ (header : Byte) (payload : List Byte), payload.length ≤ 255 →
    (encodeFrame header payload).length ≤ Config.txqCapacity

/-- A payload of more than 255 bytes has no encoding: every instruction that writes a frame is refused with one. The
refusal is the model's form of "cannot carry one" (notes/assumptions/13.md). -/
def Obligations.LongPayloadRefused : Prop :=
  ∀ (i : Instr) (s : State) (frame : Frame), sentFrame i = some frame → 255 < frame.payload.length →
    exec i s = .refused .payloadTooLong

/-- R175: `CF.DRAIN` returns and removes the first `min(k, occ(txq))` bytes. -/
def Obligations.Drain : Prop :=
  ∀ (s : State) (k : Nat), ∃ out rest, s.txq = out ++ rest ∧ out.length = min k s.txq.length ∧
    exec (.cfDrain k) s = .next { s with txq := rest, result := .bytes out, events := [] }

/-- R177, R178: any byte is a header; the next is the length, and length 0 completes the frame. -/
def Obligations.ReceiveHeaderAndLength : Prop :=
  ∀ (s : State) (b : Byte),
    (s.rx.state = .hdr → exec (.cfRxByte b) s =
      .next { s with rx := { s.rx with header := b, state := .len }, result := .frame none, events := [] }) ∧
    (s.rx.state = .len → b = 0 → exec (.cfRxByte b) s =
      .next { s with
        rx := { s.rx with len := 0, count := 0, state := .hdr }
        result := .frame (some ⟨s.rx.header, []⟩)
        events := [] }) ∧
    (s.rx.state = .len → b ≠ 0 → exec (.cfRxByte b) s =
      .next { s with
        rx := { s.rx with len := b, count := 0, state := .payload }, result := .frame none, events := [] })

/-- R179: a payload byte is stored at `count`, and the last one completes the frame. The premise `count < len` is R179's
own. -/
def Obligations.ReceivePayloadByte : Prop :=
  ∀ (s : State) (b : Byte), s.rx.state = .payload → s.rx.count < s.rx.len →
    Memory.wf 255 s.rx.payload = true →
    ∃ array, Memory.read array s.rx.count.toNat = b ∧
      (∀ k, k ≠ s.rx.count.toNat → Memory.read array k = Memory.read s.rx.payload k) ∧
      (s.rx.count + 1 = s.rx.len → exec (.cfRxByte b) s =
        .next { s with
          rx := { s.rx with payload := array, count := s.rx.count + 1, state := .hdr }
          result := .frame (some ⟨s.rx.header, Memory.copy array s.rx.len.toNat⟩)
          events := [] }) ∧
      (s.rx.count + 1 ≠ s.rx.len → exec (.cfRxByte b) s =
        .next { s with
          rx := { s.rx with payload := array, count := s.rx.count + 1 }, result := .frame none, events := [] })

/-- The framer's operations leave the codec, the accumulators and `framing_err_count`, and each leaves the other's
state (the inbox and the draw counter are the model's: notes/assumptions/1.md, 8.md). -/
def Obligations.FramerFrame : Prop :=
  ∀ (s t : State) (header b : Byte) (payload : List Byte) (k : Nat),
    (∀ i ∈ ([.cfWriteCmd header payload, .cfDrain k, .cfRxByte b] : List Instr), exec i s = .next t →
      t.cf = s.cf ∧ t.sx = s.sx ∧ t.framingErrCount = s.framingErrCount ∧ t.inbox = s.inbox ∧ t.draws = s.draws) ∧
    (exec (.cfWriteCmd header payload) s = .next t → t.rx = s.rx) ∧
    (exec (.cfDrain k) s = .next t → t.rx = s.rx ∧ t.txDropCount = s.txDropCount ∧ t.events = []) ∧
    (exec (.cfRxByte b) s = .next t → t.txq = s.txq ∧ t.txDropCount = s.txDropCount ∧ t.events = [])

/-- R181: feeding the bytes of frames in order returns `None` but at the last byte of each frame, where it returns that
frame, and ends in state `HDR`. -/
def Obligations.ReceiveInvertsEncode : Prop :=
  ∀ (s : State), s.rx.state = .hdr → Memory.wf 255 s.rx.payload = true →
    (∀ (header : Byte) (payload : List Byte), payload.length ≤ 255 →
      ∃ seen t, runOps ((encodeFrame header payload).map Instr.cfRxByte) s =
          some (seen ++ [(.frame (some ⟨header, payload⟩), [])], t) ∧
        (∀ o ∈ seen, o = (.frame none, [])) ∧ t.rx.state = .hdr) ∧
    (∀ frames : List Frame, (∀ f ∈ frames, f.payload.length ≤ 255) →
      ∃ seen t, runOps ((wireBytes frames).map Instr.cfRxByte) s = some (seen, t) ∧
        framesOf seen = frames ∧ t.rx.state = .hdr)

/-- R46: over any run without a `RESET`, what was in the queue and the frames it accepted, in order, are what was
drained, in order, and what is left. -/
def Obligations.QueueIsFirstInFirstOut : Prop :=
  ∀ (instrs : List Instr) (s t : State) (seen : List Seen), Instr.reset ∉ instrs →
    runOps instrs s = some (seen, t) →
    s.txq ++ wireBytes (acceptedFrames instrs seen) = drainedOf seen ++ t.txq

/-- The frames one instance accepts are, once all is drained, exactly the frames the other instance completes, wherever
the drains were cut. The link is the perfect one of R52 (notes/assumptions/19.md). -/
def Obligations.FramesCrossTheLink : Prop :=
  ∀ (instrs : List Instr) (s t r : State) (seen : List Seen), Instr.reset ∉ instrs →
    runOps instrs s = some (seen, t) → s.txq = [] → t.txq = [] →
    r.rx.state = .hdr → Memory.wf 255 r.rx.payload = true →
    ∃ seen' u, runOps ((drainedOf seen).map Instr.cfRxByte) r = some (seen', u) ∧
      framesOf seen' = acceptedFrames instrs seen ∧ u.rx.state = .hdr

/-- R114: the payload sizes of the assigned headers. -/
def Obligations.PayloadSizes : Prop :=
  ∀ (header : Byte) (n : Nat),
    (header ∈ ([0x40, 0x42, 0x44, 0x48, 0x49, 0x4B, 0x4D, 0x51] : List Byte) → (payloadLenOk header n = true ↔ n = 0)) ∧
    (header = 0x41 → (payloadLenOk header n = true ↔ n = 18)) ∧
    (header = 0x43 → payloadLenOk header n = true) ∧
    (header = 0x45 → (payloadLenOk header n = true ↔ n % 2 = 0)) ∧
    (header = 0x46 → (payloadLenOk header n = true ↔ n = 3)) ∧
    (header = 0x47 → (payloadLenOk header n = true ↔ 3 ≤ n)) ∧
    (header ∈ ([0x4A, 0x4C, 0x4E] : List Byte) → (payloadLenOk header n = true ↔ n ≤ 200)) ∧
    (header ∈ ([0x50, 0x52] : List Byte) → (payloadLenOk header n = true ↔ n = 1)) ∧
    (header ∉ Config.assignedHeaders → payloadLenOk header n = true)

/-! ### Events and counters -/

/-- R188: the codes and the counters of the eleven event kinds. -/
def Obligations.EventTable : Prop :=
  ([.strayData, .midPacketStatus, .packetOverflow, .reservedCin, .sysexBadStart, .sysexAbortedByMessage,
    .sysexCancelled, .sysexByteDropped, .txQueueFull, .appendAfterComplete, .sysexEoxInForeignPacket] :
      List Event).map (fun e => (e.code, e.errorClass)) =
    [(0x01, some 1), (0x02, some 1), (0x03, some 1), (0x04, some 1), (0x05, some 1), (0x06, some 1), (0x07, none),
      (0x08, some 2), (0x09, some 4), (0x0A, none), (0x0B, none)]

/-- R24, R25: each class-1 event increments `framing_err_count` once and each dropped frame `tx_drop_count` once, and no
operation but `RESET` changes them otherwise. -/
def Obligations.CountersCountEvents : Prop :=
  ∀ (i : Instr) (s t : State), i ≠ .reset → exec i s = .next t →
    t.framingErrCount = satInc^[(t.events.filter fun e => decide (e ∈ ([.strayData, .midPacketStatus, .packetOverflow,
      .reservedCin, .sysexBadStart, .sysexAbortedByMessage] : List Event))).length] s.framingErrCount ∧
    t.txDropCount = satInc^[(t.events.filter fun e => decide (e = .txQueueFull)).length] s.txDropCount

/-- R27: a counter incremented `n` times has counted `n`, or stands at its top. -/
def Obligations.CountersSaturate : Prop :=
  ∀ (n : Nat) (r : Counter), (satInc^[n] r).toNat = min (r.toNat + n) (2 ^ 32 - 1)

/-! ### The whole machine -/

/-- The byte arrays stay in their canonical form, from every state that has it (the model's form of memory,
notes/assumptions/14.md). -/
def Obligations.StepKeepsMemoryForm : Prop :=
  ∀ s t : State, s.memoryWf → step s = .next t → t.memoryWf

/-- The invariants of R17, R22, R28 and R29 are kept by every step, from every state that has them (what
the model adds to R17: notes/assumptions/25.md). -/
def Obligations.StepKeepsInvariants : Prop :=
  ∀ s t : State, s.memoryWf → s.Inv → step s = .next t → t.Inv

/-- The invariants hold after reset. That the byte arrays have nothing listed there is the model's choice
(notes/assumptions/14.md, 15.md), and so is what it adds to R17 (notes/assumptions/25.md). -/
def Obligations.ResetHasInvariants : Prop := State.reset.memoryWf ∧ State.reset.Inv

/-- R13, R15, R19, R29, U6: no result, no event and no part of the state that has a meaning depends on one that has
none. -/
def Obligations.MeaninglessStateIsNeverSeen : Prop :=
  ∀ (i : Instr) (s t s' : State), s.memoryWf → t.memoryWf → s.SameMeaning t → exec i s = .next s' →
    ∃ t', exec i t = .next t' ∧ s'.SameMeaning t' ∧ s'.result = t'.result ∧ s'.events = t'.events

/-- R45: two operations on different cables give the same results and events in either order, and the same state
(byte lists of any length: notes/assumptions/20.md). -/
def Obligations.CablesAreIndependent : Prop :=
  ∀ (s : State) (c d : Cable) (b b' : Byte) (bs bs' : List Byte) (p p' : Packet), c ≠ d →
    hiNibble p.b0 = c → hiNibble p'.b0 = d →
    ∀ i ∈ ([.pcFeed c b, .sxAppend1 c b, .sxAppend c bs, .sxScanAbort c bs, .sxReset c, .pcRxPacket p] : List Instr),
    ∀ j ∈ ([.pcFeed d b', .sxAppend1 d b', .sxAppend d bs', .sxScanAbort d bs', .sxReset d, .pcRxPacket p'] :
      List Instr),
      ∃ s1 s2 t1 t2, exec i s = .next s1 ∧ exec j s1 = .next s2 ∧ exec j s = .next t1 ∧ exec i t1 = .next t2 ∧
        s1.result = t2.result ∧ s1.events = t2.events ∧ s2.result = t1.result ∧ s2.events = t1.events ∧
        s2.cf = t2.cf ∧ s2.sx = t2.sx ∧ s2.framingErrCount = t2.framingErrCount ∧
        s2.txDropCount = t2.txDropCount ∧ s2.txq = t2.txq ∧ s2.rx = t2.rx
end

