-- ==== Sys2Proof/Laws/Ops.lean ====
section
/-! SUPPORT. The open parameters, the bit fields, the saturating counters and the counting of events. -/

namespace Sys2Proof

/-- The queue admits a total of `n` bytes exactly when `n` is at most `TXQ_CAPACITY`. -/
theorem Config.txqAdmits_iff (n : Nat) : Config.txqAdmits n = true ↔ n ≤ Config.txqCapacity := by
  have hcap : 257 ≤ Config.txqCapacity := Nat.le_add_left 257 _
  unfold Config.txqAdmits
  rw [Bool.or_eq_true, decide_eq_true_iff, decide_eq_true_iff]
  exact ⟨fun h => h.elim (fun h => h.trans hcap) id, .inr⟩

/-- Whatever byte is chosen, `HDR_MIDI_DATA` comes out unassigned. -/
theorem Config.unassigned_of_choice (b : Byte) :
    (if b ∈ Config.assignedHeaders then (0x00 : Byte) else b) ∉ Config.assignedHeaders := by
  split
  · simp [Config.assignedHeaders]
  · assumption

@[simp] theorem hiNibble_joinNibbles (h l : Nibble) : hiNibble (joinNibbles h l) = h := by
  revert h l; decide

@[simp] theorem loNibble_joinNibbles (h l : Nibble) : loNibble (joinNibbles h l) = l := by
  revert h l; decide

theorem joinNibbles_hi_lo (b : Byte) : joinNibbles (hiNibble b) (loNibble b) = b := by
  revert b; decide +kernel

namespace Machine

@[simp] theorem Packet.cable_ofFields (cin : Nibble) (cn : Cable) (d0 d1 d2 : Byte) :
    Packet.cable (Packet.ofFields cin cn d0 d1 d2) = cn := by
  simp [Packet.cable, Packet.ofFields]

@[simp] theorem Packet.cin_ofFields (cin : Nibble) (cn : Cable) (d0 d1 d2 : Byte) :
    Packet.cin (Packet.ofFields cin cn d0 d1 d2) = cin := by
  simp [Packet.cin, Packet.ofFields]

@[simp] theorem hiNibble_packetHead (c : Cable) (cin : Nibble) : hiNibble (packetHead c cin) = c := by
  simp [packetHead]

@[simp] theorem loNibble_packetHead (c : Cable) (cin : Nibble) : loNibble (packetHead c cin) = cin := by
  simp [packetHead]

/-- Storing MIDI byte number `filled` leaves the cable and CIN byte. -/
@[simp] theorem Packet.store_b0 (p : Packet) (filled : BitVec 2) (b : Byte) : (Packet.store p filled b).b0 = p.b0 := by
  unfold Packet.store; split <;> rfl

/-- Below the top a counter counts, at the top it stays. -/
theorem satInc_toNat (r : Counter) : (satInc r).toNat = min (r.toNat + 1) (2 ^ 32 - 1) := by
  simp only [satInc, BitVec.toNat_ofNat]
  omega

@[simp] theorem countEvents_nil (which : EventCounter) (r : Counter) : countEvents which [] r = r := rfl

@[simp] theorem countEvents_cons (which : EventCounter) (e : Event) (es : List Event) (r : Counter) :
    countEvents which (e :: es) r = countEvents which es (if e.counter = which then satInc r else r) := rfl

theorem countEvents_append (which : EventCounter) (es fs : List Event) (r : Counter) :
    countEvents which (es ++ fs) r = countEvents which fs (countEvents which es r) := by
  simp [countEvents, List.foldl_append]

end Machine

end Sys2Proof
end

