-- ==== Sys2Proof/Laws/State.lean ====
section
/-! SUPPORT. One lemma per field per update of the state, so that no later proof unfolds a record update. -/

namespace Sys2Proof.Machine

/-! ### `cf[c] <- f` -/

@[simp] theorem State.setCable_cable (s : State) (c : Cable) (f : CableFrame) : (s.setCable c f).cable c = f := by
  simp [State.setCable, State.cable]

theorem State.setCable_cable_other (s : State) {c d : Cable} (f : CableFrame) (h : d ≠ c) :
    (s.setCable c f).cable d = s.cable d := by
  have : c.toNat ≠ d.toNat := fun e => h (BitVec.eq_of_toNat_eq e.symm)
  simp [State.setCable, State.cable, Vector.getElem_set_ne, this]

theorem State.setCable_self (s : State) (c : Cable) : s.setCable c (s.cable c) = s := by
  simp [State.setCable, State.cable]

@[simp] theorem State.setCable_setCable (s : State) (c : Cable) (f g : CableFrame) :
    (s.setCable c f).setCable c g = s.setCable c g := by
  simp [State.setCable]

@[simp] theorem State.setCable_sx (s : State) (c : Cable) (f : CableFrame) : (s.setCable c f).sx = s.sx := rfl
@[simp] theorem State.setCable_framingErrCount (s : State) (c : Cable) (f : CableFrame) :
    (s.setCable c f).framingErrCount = s.framingErrCount := rfl
@[simp] theorem State.setCable_txDropCount (s : State) (c : Cable) (f : CableFrame) :
    (s.setCable c f).txDropCount = s.txDropCount := rfl
@[simp] theorem State.setCable_txq (s : State) (c : Cable) (f : CableFrame) : (s.setCable c f).txq = s.txq := rfl
@[simp] theorem State.setCable_rx (s : State) (c : Cable) (f : CableFrame) : (s.setCable c f).rx = s.rx := rfl
@[simp] theorem State.setCable_inbox (s : State) (c : Cable) (f : CableFrame) :
    (s.setCable c f).inbox = s.inbox := rfl
@[simp] theorem State.setCable_draws (s : State) (c : Cable) (f : CableFrame) :
    (s.setCable c f).draws = s.draws := rfl
@[simp] theorem State.setCable_result (s : State) (c : Cable) (f : CableFrame) :
    (s.setCable c f).result = s.result := rfl
@[simp] theorem State.setCable_events (s : State) (c : Cable) (f : CableFrame) :
    (s.setCable c f).events = s.events := rfl
@[simp] theorem State.setCable_sysex (s : State) (c d : Cable) (f : CableFrame) :
    (s.setCable c f).sysex d = s.sysex d := rfl

/-! ### `sx[c] <- b` -/

@[simp] theorem State.setSysex_sysex (s : State) (c : Cable) (b : SysexBuffer) : (s.setSysex c b).sysex c = b := by
  simp [State.setSysex, State.sysex]

theorem State.setSysex_sysex_other (s : State) {c d : Cable} (b : SysexBuffer) (h : d ≠ c) :
    (s.setSysex c b).sysex d = s.sysex d := by
  have : c.toNat ≠ d.toNat := fun e => h (BitVec.eq_of_toNat_eq e.symm)
  simp [State.setSysex, State.sysex, Vector.getElem_set_ne, this]

theorem State.setSysex_self (s : State) (c : Cable) : s.setSysex c (s.sysex c) = s := by
  simp [State.setSysex, State.sysex]

@[simp] theorem State.setSysex_setSysex (s : State) (c : Cable) (a b : SysexBuffer) :
    (s.setSysex c a).setSysex c b = s.setSysex c b := by
  simp [State.setSysex]

@[simp] theorem State.setSysex_cf (s : State) (c : Cable) (b : SysexBuffer) : (s.setSysex c b).cf = s.cf := rfl
@[simp] theorem State.setSysex_framingErrCount (s : State) (c : Cable) (b : SysexBuffer) :
    (s.setSysex c b).framingErrCount = s.framingErrCount := rfl
@[simp] theorem State.setSysex_txDropCount (s : State) (c : Cable) (b : SysexBuffer) :
    (s.setSysex c b).txDropCount = s.txDropCount := rfl
@[simp] theorem State.setSysex_txq (s : State) (c : Cable) (b : SysexBuffer) : (s.setSysex c b).txq = s.txq := rfl
@[simp] theorem State.setSysex_rx (s : State) (c : Cable) (b : SysexBuffer) : (s.setSysex c b).rx = s.rx := rfl
@[simp] theorem State.setSysex_inbox (s : State) (c : Cable) (b : SysexBuffer) :
    (s.setSysex c b).inbox = s.inbox := rfl
@[simp] theorem State.setSysex_draws (s : State) (c : Cable) (b : SysexBuffer) :
    (s.setSysex c b).draws = s.draws := rfl
@[simp] theorem State.setSysex_result (s : State) (c : Cable) (b : SysexBuffer) :
    (s.setSysex c b).result = s.result := rfl
@[simp] theorem State.setSysex_events (s : State) (c : Cable) (b : SysexBuffer) :
    (s.setSysex c b).events = s.events := rfl
@[simp] theorem State.setSysex_cable (s : State) (c d : Cable) (b : SysexBuffer) :
    (s.setSysex c b).cable d = s.cable d := rfl

/-! ### The end of an operation -/

@[simp] theorem State.finish_cf (s : State) (r : OpResult) (es : List Event) : (s.finish r es).cf = s.cf := rfl
@[simp] theorem State.finish_sx (s : State) (r : OpResult) (es : List Event) : (s.finish r es).sx = s.sx := rfl
@[simp] theorem State.finish_cable (s : State) (r : OpResult) (es : List Event) (c : Cable) :
    (s.finish r es).cable c = s.cable c := rfl
@[simp] theorem State.finish_sysex (s : State) (r : OpResult) (es : List Event) (c : Cable) :
    (s.finish r es).sysex c = s.sysex c := rfl
@[simp] theorem State.finish_txq (s : State) (r : OpResult) (es : List Event) : (s.finish r es).txq = s.txq := rfl
@[simp] theorem State.finish_rx (s : State) (r : OpResult) (es : List Event) : (s.finish r es).rx = s.rx := rfl
@[simp] theorem State.finish_inbox (s : State) (r : OpResult) (es : List Event) :
    (s.finish r es).inbox = s.inbox := rfl
@[simp] theorem State.finish_draws (s : State) (r : OpResult) (es : List Event) :
    (s.finish r es).draws = s.draws := rfl
@[simp] theorem State.finish_result (s : State) (r : OpResult) (es : List Event) :
    (s.finish r es).result = r := rfl
@[simp] theorem State.finish_events (s : State) (r : OpResult) (es : List Event) :
    (s.finish r es).events = es := rfl
@[simp] theorem State.finish_framingErrCount (s : State) (r : OpResult) (es : List Event) :
    (s.finish r es).framingErrCount = countEvents .framingErr es s.framingErrCount := rfl
@[simp] theorem State.finish_txDropCount (s : State) (r : OpResult) (es : List Event) :
    (s.finish r es).txDropCount = countEvents .txDrop es s.txDropCount := rfl

/-- An operation without events leaves both counters. -/
theorem State.finish_no_events (s : State) (r : OpResult) :
    s.finish r [] = { s with result := r, events := [] } := rfl

/-! ### The environment's requests -/

@[simp] theorem State.request_inbox (s : State) (r : Request) : (s.request r).inbox = r :: s.inbox := rfl

/-- What the fetch can answer: nothing for an empty inbox, else the first request and the state without it. -/
theorem State.fetch_spec (s : State) :
    (s.inbox = [] ∧ s.fetch = none) ∨
    ∃ r rest, s.inbox = r :: rest ∧ s.fetch = some (r, { s with inbox := rest, draws := s.draws + 1 }) := by
  unfold State.fetch
  cases h : s.inbox with
  | nil => exact .inl ⟨rfl, rfl⟩
  | cons r rest => exact .inr ⟨r, rest, rfl, rfl⟩

/-- A request issued is the next one fetched. -/
theorem State.fetch_request (s : State) (r : Request) :
    (s.request r).fetch = some (r, { s with draws := s.draws + 1 }) := rfl

/-! ### `RESET` on the register files -/

@[simp] theorem State.reset_cable (c : Cable) : State.reset.cable c = CableFrame.reset := by
  simp [State.reset, State.cable]

@[simp] theorem State.reset_sysex (c : Cable) : State.reset.sysex c = SysexBuffer.reset := by
  simp [State.reset, State.sysex]

@[simp] theorem State.quiesce_cable (s : State) (c : Cable) : s.quiesce.cable c = CableFrame.reset := by
  simp [State.quiesce, State.cable]

@[simp] theorem State.quiesce_sysex (s : State) (c : Cable) : s.quiesce.sysex c = (s.sysex c).clear := by
  simp [State.quiesce, State.sysex]

end Sys2Proof.Machine
end

