-- ==== Sys2Proof/Laws/Codec.lean ====
section
/-! SUPPORT. What the packet codec's operations can do, said once. -/

namespace Sys2Proof.Machine

/-- `FINISH` either returns the packet and clears `filled`, or changes nothing. -/
theorem CableFrame.complete_cases (F : CableFrame) (es : List Event) :
    (F.filled = F.expectedSize ∧ F.complete es = ⟨{ F with filled := 0 }, some F.packet, es⟩) ∨
    (F.filled ≠ F.expectedSize ∧ F.complete es = ⟨F, none, es⟩) := by
  unfold CableFrame.complete
  split
  · exact .inl ⟨‹_›, rfl⟩
  · exact .inr ⟨‹_›, rfl⟩

/-- `START`: a status byte starts its packet, a data byte continues an open SysEx or is stray. -/
theorem CableFrame.first_cases (F : CableFrame) (c : Cable) (b : Byte) (es : List Event) :
    (isStatus b = true ∧ F.first c b es =
      ({ F with inSysex := inSysexAfterStart b }.start c b (startShape b).1 (startShape b).2).complete es) ∨
    (isStatus b = false ∧ F.inSysex = true ∧ F.first c b es = ⟨F.start c b 0x4 3, none, es⟩) ∨
    (isStatus b = false ∧ F.inSysex = false ∧ F.first c b es = ⟨F, none, es ++ [.strayData]⟩) := by
  unfold CableFrame.first
  cases hb : isStatus b with
  | true => exact .inl ⟨rfl, rfl⟩
  | false =>
    cases hs : F.inSysex with
    | true => exact .inr (.inl ⟨rfl, rfl, rfl⟩)
    | false => exact .inr (.inr ⟨rfl, rfl, rfl⟩)

/-- `PC.FEED`: which arm of R121 runs, and what it does. -/
theorem CableFrame.feed_cases (F : CableFrame) (c : Cable) (b : Byte) :
    (F.filled = 0 ∧ F.feed c b = F.first c b []) ∨
    (F.filled ≠ 0 ∧ (F.expectedSize ≤ F.filled ∨ F.filled = 3) ∧
      F.feed c b = ⟨{ F with filled := 0 }, none, [.packetOverflow]⟩) ∨
    ((F.filled = 1 ∨ F.filled = 2) ∧ F.filled < F.expectedSize ∧
      ((b = 0xF7 ∧ Packet.cin F.packet = 0x4 ∧
          ∃ p, p = { Packet.store F.packet F.filled 0xF7 with b0 := packetHead c (0x4 + (F.filled.setWidth 4 + 1)) } ∧
            F.feed c b = ⟨{ F with packet := p, filled := 0, inSysex := false }, some p, []⟩) ∨
       (¬(b = 0xF7 ∧ Packet.cin F.packet = 0x4) ∧ isStatus b = true ∧
          F.feed c b = CableFrame.first { F with filled := 0, inSysex := false } c b [.midPacketStatus]) ∨
       (isStatus b = false ∧
          F.feed c b =
            CableFrame.complete { F with packet := Packet.store F.packet F.filled b, filled := F.filled + 1 } []))) := by
  unfold CableFrame.feed
  by_cases h0 : F.filled = 0
  · exact .inl ⟨h0, if_pos h0⟩
  rw [if_neg h0]
  by_cases h1 : F.expectedSize ≤ F.filled ∨ 2 < F.filled
  · refine .inr (.inl ⟨h0, h1.imp_right fun h => ?_, if_pos h1⟩)
    revert h; generalize F.filled = x; revert x; decide
  rw [if_neg h1]
  have h2 : (F.filled = 1 ∨ F.filled = 2) ∧ F.filled < F.expectedSize := by
    revert h0 h1; generalize F.filled = x; generalize F.expectedSize = y; revert x y; decide
  refine .inr (.inr ⟨h2.1, h2.2, ?_⟩)
  by_cases h3 : b = 0xF7 ∧ Packet.cin F.packet = 0x4
  · rw [if_pos h3]
    exact .inl ⟨h3.1, h3.2, _, rfl, rfl⟩
  rw [if_neg h3]
  by_cases h4 : isStatus b = true
  · exact .inr (.inl ⟨h3, h4, if_pos h4⟩)
  · exact .inr (.inr ⟨by simpa using h4, if_neg h4⟩)

/-- `PC.UNPACK`: a reserved CIN gives nothing, any other its first `nbytes(CIN)` data bytes. -/
theorem Packet.unpack_cases (p : Packet) :
    (nbytes (Packet.cin p) = none ∧ Packet.unpack p = none) ∨
    ∃ n, nbytes (Packet.cin p) = some n ∧
      Packet.unpack p = some ⟨Packet.cable p, Packet.cin p, Packet.validBytes p n⟩ := by
  unfold Packet.unpack
  cases h : nbytes (Packet.cin p) with
  | none => exact .inl ⟨rfl, rfl⟩
  | some n => exact .inr ⟨n, rfl, rfl⟩

@[simp] theorem unpackEvents_none : unpackEvents none = [.reservedCin] := rfl
@[simp] theorem unpackEvents_some (u : Unpacked) : unpackEvents (some u) = [] := rfl

/-- `PC.FEED` works on its cable's frame only. -/
theorem State.feed_spec (s : State) (c : Cable) (b : Byte) :
    s.feed c b = (s.setCable c ((s.cable c).feed c b).now).finish (.packet ((s.cable c).feed c b).result)
      ((s.cable c).feed c b).events := rfl

end Sys2Proof.Machine
end

