-- ==== Sys2Proof/Laws/Memory.lean ====
section
/-! SUPPORT. The laws of the byte arrays: reading after writing, and the canonical form. -/

namespace Sys2Proof.Machine

@[simp] theorem Memory.read_nil (i : Nat) : Memory.read [] i = unlistedByte := rfl

theorem Memory.read_cons (j : Nat) (x : Byte) (m : Memory) (i : Nat) :
    Memory.read ((j, x) :: m) i = if i = j then x else Memory.read m i := rfl

/-- An index that no entry has reads as an unlisted one. -/
theorem Memory.read_unlisted (m : Memory) (i : Nat) (h : ∀ cell ∈ m, cell.1 ≠ i) :
    Memory.read m i = unlistedByte := by
  induction m with
  | nil => rfl
  | cons cell m ih =>
    obtain ⟨j, x⟩ := cell
    rw [Memory.read_cons, if_neg (fun e => h (j, x) (by simp) e.symm)]
    exact ih fun cell hc => h cell (by simp [hc])

/-- The canonical form of a nonempty array, part by part. -/
theorem Memory.wf_cons {cap j : Nat} {x : Byte} {m : Memory} :
    Memory.wf cap ((j, x) :: m) = true ↔
      j < cap ∧ x ≠ unlistedByte ∧ (∀ cell ∈ m, j < cell.1) ∧ Memory.wf cap m = true := by
  simp [Memory.wf, and_assoc]

/-- Below its first entry a canonical array reads as unlisted. -/
theorem Memory.read_below {cap : Nat} {m : Memory} {i : Nat} (_ : Memory.wf cap m = true)
    (h : ∀ cell ∈ m, i < cell.1) : Memory.read m i = unlistedByte :=
  Memory.read_unlisted m i fun cell hc e => absurd (h cell hc) (by omega)

theorem Memory.read_consCell {m : Memory} {i : Nat} {b : Byte} (h : ∀ cell ∈ m, i < cell.1) (k : Nat) :
    Memory.read (Memory.consCell i b m) k = if k = i then b else Memory.read m k := by
  unfold Memory.consCell
  split
  · rename_i hb
    split
    · rename_i hk
      rw [hk, hb]
      exact Memory.read_unlisted m i fun cell hc e => absurd (h cell hc) (by omega)
    · rfl
  · rw [Memory.read_cons]

/-- Writing one byte of a canonical array: that index reads the byte, every other index reads as before. -/
theorem Memory.read_write {cap : Nat} {m : Memory} (hm : Memory.wf cap m = true) (i : Nat) (b : Byte) (k : Nat) :
    Memory.read (Memory.write m i b) k = if k = i then b else Memory.read m k := by
  induction m with
  | nil => exact Memory.read_consCell (by simp) k
  | cons cell m ih =>
    obtain ⟨j, x⟩ := cell
    obtain ⟨_, _, hj, hm'⟩ := Memory.wf_cons.mp hm
    unfold Memory.write
    split
    · rename_i hij
      refine Memory.read_consCell (fun cell hc => ?_) k
      rcases List.mem_cons.mp hc with rfl | hc
      · exact hij
      · exact lt_trans hij (hj cell hc)
    · split
      · rename_i hij
        subst hij
        rw [Memory.read_consCell hj k, Memory.read_cons]
        split <;> rfl
      · rename_i hlt hne
        rw [Memory.read_cons, Memory.read_cons, ih hm']
        by_cases hk : k = j
        · have : k ≠ i := fun e => hne (e ▸ hk)
          simp [hk, show j ≠ i from fun e => hne e.symm]
        · simp [hk]

/-- Writing keeps the entries above any bound that all of them and the index are above. -/
theorem Memory.lt_of_mem_write {m : Memory} {i n : Nat} {b : Byte} (hi : n < i) (h : ∀ cell ∈ m, n < cell.1) :
    ∀ cell ∈ Memory.write m i b, n < cell.1 := by
  have hcons : ∀ m' : Memory, (∀ cell ∈ m', n < cell.1) → ∀ cell ∈ Memory.consCell i b m', n < cell.1 := by
    intro m' h' cell hc
    unfold Memory.consCell at hc
    split at hc
    · exact h' cell hc
    · rcases List.mem_cons.mp hc with rfl | hc
      · exact hi
      · exact h' cell hc
  induction m with
  | nil => exact hcons [] h
  | cons cell m ih =>
    obtain ⟨j, x⟩ := cell
    unfold Memory.write
    split
    · exact hcons _ h
    · split
      · exact hcons m fun cell hc => h cell (by simp [hc])
      · intro cell hc
        rcases List.mem_cons.mp hc with rfl | hc
        · exact h (j, x) (by simp)
        · exact ih (fun cell hc => h cell (by simp [hc])) cell hc

theorem Memory.consCell_wf {cap : Nat} {m : Memory} {i : Nat} {b : Byte} (hi : i < cap)
    (h : ∀ cell ∈ m, i < cell.1) (hm : Memory.wf cap m = true) : Memory.wf cap (Memory.consCell i b m) = true := by
  unfold Memory.consCell
  split
  · exact hm
  · rename_i hb
    exact Memory.wf_cons.mpr ⟨hi, hb, h, hm⟩

/-- Writing below the capacity keeps the canonical form. -/
theorem Memory.write_wf {cap : Nat} {m : Memory} {i : Nat} (b : Byte) (hi : i < cap)
    (hm : Memory.wf cap m = true) : Memory.wf cap (Memory.write m i b) = true := by
  induction m with
  | nil => exact Memory.consCell_wf hi (by simp) hm
  | cons cell m ih =>
    obtain ⟨j, x⟩ := cell
    obtain ⟨hjc, hx, hj, hm'⟩ := Memory.wf_cons.mp hm
    unfold Memory.write
    split
    · rename_i hij
      refine Memory.consCell_wf hi (fun cell hc => ?_) hm
      rcases List.mem_cons.mp hc with rfl | hc
      · exact hij
      · exact lt_trans hij (hj cell hc)
    · split
      · rename_i hij
        exact Memory.consCell_wf hi (hij ▸ hj) hm'
      · rename_i hlt hne
        exact Memory.wf_cons.mpr ⟨hjc, hx, Memory.lt_of_mem_write (by omega) hj, ih hm'⟩

/-- Two canonical arrays that read the same everywhere are the same list. -/
theorem Memory.eq_of_read {cap : Nat} : ∀ {m n : Memory}, Memory.wf cap m = true → Memory.wf cap n = true →
    (∀ i, Memory.read m i = Memory.read n i) → m = n
  | [], [], _, _, _ => rfl
  | [], (j, x) :: n, _, hn, h => by
    have := h j
    rw [Memory.read_cons, if_pos rfl] at this
    exact absurd this.symm (Memory.wf_cons.mp hn).2.1
  | (j, x) :: m, [], hm, _, h => by
    have := h j
    rw [Memory.read_cons, if_pos rfl] at this
    exact absurd this (Memory.wf_cons.mp hm).2.1
  | (j, x) :: m, (k, y) :: n, hm, hn, h => by
    obtain ⟨_, hx, hj, hm'⟩ := Memory.wf_cons.mp hm
    obtain ⟨_, hy, hk, hn'⟩ := Memory.wf_cons.mp hn
    have hjk : j = k := by
      rcases lt_trichotomy j k with hlt | rfl | hlt
      · have := h j
        rw [Memory.read_cons, if_pos rfl, Memory.read_cons, if_neg (by omega),
          Memory.read_below hn' fun cell hc => lt_trans hlt (hk cell hc)] at this
        exact absurd this hx
      · rfl
      · have := h k
        rw [Memory.read_cons, if_neg (by omega), Memory.read_cons, if_pos rfl,
          Memory.read_below hm' fun cell hc => lt_trans hlt (hj cell hc)] at this
        exact absurd this.symm hy
    subst hjk
    have hxy : x = y := by simpa [Memory.read_cons] using h j
    subst hxy
    have hmn : m = n := by
      refine Memory.eq_of_read hm' hn' fun i => ?_
      by_cases hi : i = j
      · rw [hi, Memory.read_below hm' hj, Memory.read_below hn' hk]
      · simpa [Memory.read_cons, hi] using h i
    rw [hmn]

/-! ### Copies -/

@[simp] theorem Memory.copy_length (m : Memory) (n : Nat) : (Memory.copy m n).length = n := by
  simp [Memory.copy]

@[simp] theorem Memory.copy_zero (m : Memory) : Memory.copy m 0 = [] := rfl

theorem Memory.copy_succ (m : Memory) (n : Nat) : Memory.copy m (n + 1) = Memory.copy m n ++ [Memory.read m n] := by
  simp [Memory.copy, List.range_succ]

theorem Memory.copy_getElem (m : Memory) (n i : Nat) (h : i < (Memory.copy m n).length) :
    (Memory.copy m n)[i] = Memory.read m i := by
  simp [Memory.copy]

/-- A copy depends on the bytes below its end only. -/
theorem Memory.copy_congr {m m' : Memory} {n : Nat} (h : ∀ i < n, Memory.read m i = Memory.read m' i) :
    Memory.copy m n = Memory.copy m' n := by
  simp only [Memory.copy]
  exact List.map_congr_left fun i hi => h i (List.mem_range.mp hi)

end Sys2Proof.Machine
end

