-- ==== Sys2Proof/Laws/Framer.lean ====
section
/-! SUPPORT. What the framer's operations can do, said once. -/

namespace Sys2Proof.Machine

@[simp] theorem encodeFrame_length (header : Byte) (payload : List Byte) :
    (encodeFrame header payload).length = payload.length + 2 := by
  simp [encodeFrame]

/-- The encoder of instructions and `CF.ENCODE` lay a frame out alike. -/
theorem encodeFrame_eq_frameBytes (header : Byte) (payload : List Byte) :
    encodeFrame header payload = frameBytes header payload := rfl

/-- `CF.WRITE_CMD`: the frame enters whole or not at all. -/
theorem writeFrame_cases (admits : Nat → Bool) (txq : List Byte) (header : Byte) (payload : List Byte) :
    (admits (txq.length + (payload.length + 2)) = true ∧
      writeFrame admits txq header payload = ⟨txq ++ encodeFrame header payload, .ok, []⟩) ∨
    (admits (txq.length + (payload.length + 2)) = false ∧
      writeFrame admits txq header payload = ⟨txq, .dropped, [.txQueueFull]⟩) := by
  have hlen := encodeFrame_length header payload
  unfold writeFrame
  cases h : admits (txq.length + (payload.length + 2)) with
  | true => exact .inl ⟨rfl, by simp only [hlen, h, if_true]⟩
  | false => exact .inr ⟨rfl, by simp [hlen, h]⟩

/-- A written command: what the queue did with it, or the refusal of a payload that no frame can carry. -/
theorem State.writeCmd_cases (s : State) (header : Byte) (payload : List Byte) :
    (payload.length ≤ 255 ∧ s.writeCmd header payload =
      .next ({ s with txq := (writeFrame Config.txqAdmits s.txq header payload).now }.finish
        (.write (writeFrame Config.txqAdmits s.txq header payload).result)
        (writeFrame Config.txqAdmits s.txq header payload).events)) ∨
    (255 < payload.length ∧ s.writeCmd header payload = .refused .payloadTooLong) := by
  unfold State.writeCmd
  by_cases h : payload.length ≤ Config.cmdMaxPayload
  · exact .inl ⟨h, if_pos h⟩
  · exact .inr ⟨not_le.mp h, if_neg h⟩

@[simp] theorem RxFramer.storeByte_state (rx : RxFramer) (draw : Nat) (b : Byte) :
    (rx.storeByte draw b).state = rx.state := by
  unfold RxFramer.storeByte; split <;> rfl

@[simp] theorem RxFramer.storeByte_header (rx : RxFramer) (draw : Nat) (b : Byte) :
    (rx.storeByte draw b).header = rx.header := by
  unfold RxFramer.storeByte; split <;> rfl

@[simp] theorem RxFramer.storeByte_len (rx : RxFramer) (draw : Nat) (b : Byte) :
    (rx.storeByte draw b).len = rx.len := by
  unfold RxFramer.storeByte; split <;> rfl

/-- Storing a payload byte: at `count` where the array has that index, else only a free count. -/
theorem RxFramer.storeByte_cases (rx : RxFramer) (draw : Nat) (b : Byte) :
    (rx.count.toNat < 255 ∧ rx.storeByte draw b =
      { rx with payload := Memory.write rx.payload rx.count.toNat b, count := rx.count + 1 }) ∨
    (rx.count.toNat = 255 ∧ rx.storeByte draw b = { rx with count := Config.rxCountOverrun draw }) := by
  unfold RxFramer.storeByte
  by_cases h : rx.count.toNat < Config.cmdMaxPayload
  · exact .inl ⟨h, if_pos h⟩
  · have : rx.count.toNat < 256 := rx.count.isLt
    have : ¬ rx.count.toNat < 255 := h
    exact .inr ⟨by omega, if_neg h⟩

/-- `CF.RX_BYTE`: which arm of R176 runs, and what it does. -/
theorem RxFramer.receive_cases (rx : RxFramer) (draw : Nat) (b : Byte) :
    (rx.state = .hdr ∧ rx.receive draw b = ({ rx with header := b, state := .len }, none)) ∨
    (rx.state = .len ∧ b = 0 ∧
      rx.receive draw b = ({ rx with len := b, count := 0, state := .hdr }, some ⟨rx.header, []⟩)) ∨
    (rx.state = .len ∧ b ≠ 0 ∧ rx.receive draw b = ({ rx with len := b, count := 0, state := .payload }, none)) ∨
    (rx.state = .payload ∧ (rx.storeByte draw b).count = rx.len ∧ rx.receive draw b =
      ({ rx.storeByte draw b with state := .hdr },
        some ⟨rx.header, Memory.copy (rx.storeByte draw b).payload rx.len.toNat⟩)) ∨
    (rx.state = .payload ∧ (rx.storeByte draw b).count ≠ rx.len ∧
      rx.receive draw b = (rx.storeByte draw b, none)) := by
  unfold RxFramer.receive
  cases h : rx.state with
  | hdr => exact .inl ⟨rfl, rfl⟩
  | len =>
    by_cases hb : b = 0
    · exact .inr (.inl ⟨rfl, hb, if_pos hb⟩)
    · exact .inr (.inr (.inl ⟨rfl, hb, if_neg hb⟩))
  | payload =>
    by_cases hc : (rx.storeByte draw b).count = rx.len
    · exact .inr (.inr (.inr (.inl ⟨rfl, hc, by simp [hc]⟩)))
    · exact .inr (.inr (.inr (.inr ⟨rfl, hc, by simp [hc]⟩)))

end Sys2Proof.Machine
end

