-- ==== Sys2Proof/Laws/PerInstr.lean ====
section
/-! SUPPORT. Statements made per instruction: the encoder gives every request the length that R53 and R116 say. -/

namespace Sys2Proof

/-- The number of bytes in a request. -/
def Request.size : Request → Nat
  | .opsel bytes => bytes.length
  | .packet _ bytes => bytes.length
  | .midi _ _ bytes => bytes.length
  | .frame bytes => bytes.length

/-- The lengths a request of each format may have (R53): an `OPSEL` request has at least its first byte, a packet 4 bytes,
a stream byte 1, a frame 2 to 257. -/
def Request.lengthOk : Request → Bool
  | .opsel bytes => decide (1 ≤ bytes.length)
  | .packet _ bytes => decide (bytes.length = 4)
  | .midi _ _ bytes => decide (bytes.length = 1)
  | .frame bytes => decide (2 ≤ bytes.length) && decide (bytes.length ≤ 257)

/-- The family: the encoding of a well-formed instruction is a request of a length its format allows. -/
def Laws.RequestLength.Statement (i : Instr) : Prop := WellFormed i = true → (encode i).lengthOk = true

/-- The length of a frame's request, for the rows that are frames. -/
theorem Laws.frameRequest_lengthOk (header : Byte) {payload : List Byte} (h : payloadOk payload = true) :
    (Request.frame (frameBytes header payload)).lengthOk = true := by
  have h' : payload.length ≤ 255 := of_decide_eq_true h
  simp [Request.lengthOk, frameBytes]
  omega

theorem Laws.RequestLength.reset : Laws.RequestLength.Statement .reset := fun _ => by simp [encode, opselRequest, Request.lengthOk]
theorem Laws.RequestLength.pcFeed (c : Cable) (b : Byte) : Laws.RequestLength.Statement (.pcFeed c b) := fun _ => by simp [encode, opselRequest, Request.lengthOk]
theorem Laws.RequestLength.pcUnpack (p : Packet) : Laws.RequestLength.Statement (.pcUnpack p) := fun _ => by simp [encode, opselRequest, Request.lengthOk]
theorem Laws.RequestLength.pcRxPacket (p : Packet) : Laws.RequestLength.Statement (.pcRxPacket p) := fun _ => by simp [encode, opselRequest, Request.lengthOk]
theorem Laws.RequestLength.sxAppend1 (c : Cable) (b : Byte) : Laws.RequestLength.Statement (.sxAppend1 c b) := fun _ => by simp [encode, opselRequest, Request.lengthOk]
theorem Laws.RequestLength.sxAppend (c : Cable) (bs : List Byte) : Laws.RequestLength.Statement (.sxAppend c bs) := fun _ => by simp [encode, opselRequest, Request.lengthOk]
theorem Laws.RequestLength.sxScanAbort (c : Cable) (bs : List Byte) : Laws.RequestLength.Statement (.sxScanAbort c bs) := fun _ => by simp [encode, opselRequest, Request.lengthOk]
theorem Laws.RequestLength.sxReset (c : Cable) : Laws.RequestLength.Statement (.sxReset c) := fun _ => by simp [encode, opselRequest, Request.lengthOk]
theorem Laws.RequestLength.cfWriteCmd (h : Byte) (p : List Byte) : Laws.RequestLength.Statement (.cfWriteCmd h p) := fun _ => by simp [encode, opselRequest, Request.lengthOk]
theorem Laws.RequestLength.cfDrain (k : Nat) : Laws.RequestLength.Statement (.cfDrain k) := fun _ => by simp [encode, opselRequest, Request.lengthOk]
theorem Laws.RequestLength.cfRxByte (b : Byte) : Laws.RequestLength.Statement (.cfRxByte b) := fun _ => by simp [encode, opselRequest, Request.lengthOk]
theorem Laws.RequestLength.cinReserved0 (op : PacketOp) (cn : Cable) (d0 d1 d2 : Byte) :
    Laws.RequestLength.Statement (.cinReserved0 op cn d0 d1 d2) := fun _ => rfl
theorem Laws.RequestLength.cinReserved1 (op : PacketOp) (cn : Cable) (d0 d1 d2 : Byte) :
    Laws.RequestLength.Statement (.cinReserved1 op cn d0 d1 d2) := fun _ => rfl
theorem Laws.RequestLength.cinSyscom2 (op : PacketOp) (cn : Cable) (d0 d1 d2 : Byte) :
    Laws.RequestLength.Statement (.cinSyscom2 op cn d0 d1 d2) := fun _ => rfl
theorem Laws.RequestLength.cinSyscom3 (op : PacketOp) (cn : Cable) (d0 d1 d2 : Byte) :
    Laws.RequestLength.Statement (.cinSyscom3 op cn d0 d1 d2) := fun _ => rfl
theorem Laws.RequestLength.cinSysexStart (op : PacketOp) (cn : Cable) (d0 d1 d2 : Byte) :
    Laws.RequestLength.Statement (.cinSysexStart op cn d0 d1 d2) := fun _ => rfl
theorem Laws.RequestLength.cinSysexEnd1 (op : PacketOp) (cn : Cable) (d0 d1 d2 : Byte) :
    Laws.RequestLength.Statement (.cinSysexEnd1 op cn d0 d1 d2) := fun _ => rfl
theorem Laws.RequestLength.cinSysexEnd2 (op : PacketOp) (cn : Cable) (d0 d1 d2 : Byte) :
    Laws.RequestLength.Statement (.cinSysexEnd2 op cn d0 d1 d2) := fun _ => rfl
theorem Laws.RequestLength.cinSysexEnd3 (op : PacketOp) (cn : Cable) (d0 d1 d2 : Byte) :
    Laws.RequestLength.Statement (.cinSysexEnd3 op cn d0 d1 d2) := fun _ => rfl
theorem Laws.RequestLength.cinNoteOff (op : PacketOp) (cn : Cable) (d0 d1 d2 : Byte) :
    Laws.RequestLength.Statement (.cinNoteOff op cn d0 d1 d2) := fun _ => rfl
theorem Laws.RequestLength.cinNoteOn (op : PacketOp) (cn : Cable) (d0 d1 d2 : Byte) :
    Laws.RequestLength.Statement (.cinNoteOn op cn d0 d1 d2) := fun _ => rfl
theorem Laws.RequestLength.cinPolyPressure (op : PacketOp) (cn : Cable) (d0 d1 d2 : Byte) :
    Laws.RequestLength.Statement (.cinPolyPressure op cn d0 d1 d2) := fun _ => rfl
theorem Laws.RequestLength.cinControlChange (op : PacketOp) (cn : Cable) (d0 d1 d2 : Byte) :
    Laws.RequestLength.Statement (.cinControlChange op cn d0 d1 d2) := fun _ => rfl
theorem Laws.RequestLength.cinProgramChange (op : PacketOp) (cn : Cable) (d0 d1 d2 : Byte) :
    Laws.RequestLength.Statement (.cinProgramChange op cn d0 d1 d2) := fun _ => rfl
theorem Laws.RequestLength.cinChannelPressure (op : PacketOp) (cn : Cable) (d0 d1 d2 : Byte) :
    Laws.RequestLength.Statement (.cinChannelPressure op cn d0 d1 d2) := fun _ => rfl
theorem Laws.RequestLength.cinPitchBend (op : PacketOp) (cn : Cable) (d0 d1 d2 : Byte) :
    Laws.RequestLength.Statement (.cinPitchBend op cn d0 d1 d2) := fun _ => rfl
theorem Laws.RequestLength.cinSingleByte (op : PacketOp) (cn : Cable) (d0 d1 d2 : Byte) :
    Laws.RequestLength.Statement (.cinSingleByte op cn d0 d1 d2) := fun _ => rfl
theorem Laws.RequestLength.data (op : ByteOp) (c : Cable) (v : BitVec 7) :
    Laws.RequestLength.Statement (.data op c v) := fun _ => rfl
theorem Laws.RequestLength.stNoteOff (op : ByteOp) (c : Cable) (n : Nibble) : Laws.RequestLength.Statement (.stNoteOff op c n) := fun _ => rfl
theorem Laws.RequestLength.stNoteOn (op : ByteOp) (c : Cable) (n : Nibble) : Laws.RequestLength.Statement (.stNoteOn op c n) := fun _ => rfl
theorem Laws.RequestLength.stPolyPressure (op : ByteOp) (c : Cable) (n : Nibble) : Laws.RequestLength.Statement (.stPolyPressure op c n) := fun _ => rfl
theorem Laws.RequestLength.stControlChange (op : ByteOp) (c : Cable) (n : Nibble) : Laws.RequestLength.Statement (.stControlChange op c n) := fun _ => rfl
theorem Laws.RequestLength.stProgramChange (op : ByteOp) (c : Cable) (n : Nibble) : Laws.RequestLength.Statement (.stProgramChange op c n) := fun _ => rfl
theorem Laws.RequestLength.stChannelPressure (op : ByteOp) (c : Cable) (n : Nibble) : Laws.RequestLength.Statement (.stChannelPressure op c n) := fun _ => rfl
theorem Laws.RequestLength.stPitchBend (op : ByteOp) (c : Cable) (n : Nibble) : Laws.RequestLength.Statement (.stPitchBend op c n) := fun _ => rfl
theorem Laws.RequestLength.stSysexStart (op : ByteOp) (c : Cable) : Laws.RequestLength.Statement (.stSysexStart op c) := fun _ => rfl
theorem Laws.RequestLength.stSyscomF1 (op : ByteOp) (c : Cable) : Laws.RequestLength.Statement (.stSyscomF1 op c) := fun _ => rfl
theorem Laws.RequestLength.stSyscomF2 (op : ByteOp) (c : Cable) : Laws.RequestLength.Statement (.stSyscomF2 op c) := fun _ => rfl
theorem Laws.RequestLength.stSyscomF3 (op : ByteOp) (c : Cable) : Laws.RequestLength.Statement (.stSyscomF3 op c) := fun _ => rfl
theorem Laws.RequestLength.stSingleF4 (op : ByteOp) (c : Cable) : Laws.RequestLength.Statement (.stSingleF4 op c) := fun _ => rfl
theorem Laws.RequestLength.stSingleF5 (op : ByteOp) (c : Cable) : Laws.RequestLength.Statement (.stSingleF5 op c) := fun _ => rfl
theorem Laws.RequestLength.stSingleF6 (op : ByteOp) (c : Cable) : Laws.RequestLength.Statement (.stSingleF6 op c) := fun _ => rfl
theorem Laws.RequestLength.stEox (op : ByteOp) (c : Cable) : Laws.RequestLength.Statement (.stEox op c) := fun _ => rfl
theorem Laws.RequestLength.stRealtime (op : ByteOp) (c : Cable) (r : BitVec 3) :
    Laws.RequestLength.Statement (.stRealtime op c r) := fun _ => rfl
theorem Laws.RequestLength.requestDevDesc (p : List Byte) : Laws.RequestLength.Statement (.requestDevDesc p) := fun h => Laws.frameRequest_lengthOk _ h
theorem Laws.RequestLength.returnDevDesc (p : List Byte) : Laws.RequestLength.Statement (.returnDevDesc p) := fun h => Laws.frameRequest_lengthOk _ h
theorem Laws.RequestLength.requestDevStringIdxs (p : List Byte) : Laws.RequestLength.Statement (.requestDevStringIdxs p) := fun h => Laws.frameRequest_lengthOk _ h
theorem Laws.RequestLength.returnDevStringIdxs (p : List Byte) : Laws.RequestLength.Statement (.returnDevStringIdxs p) := fun h => Laws.frameRequest_lengthOk _ h
theorem Laws.RequestLength.requestDevLangids (p : List Byte) : Laws.RequestLength.Statement (.requestDevLangids p) := fun h => Laws.frameRequest_lengthOk _ h
theorem Laws.RequestLength.returnDevLangids (p : List Byte) : Laws.RequestLength.Statement (.returnDevLangids p) := fun h => Laws.frameRequest_lengthOk _ h
theorem Laws.RequestLength.requestDevString (p : List Byte) : Laws.RequestLength.Statement (.requestDevString p) := fun h => Laws.frameRequest_lengthOk _ h
theorem Laws.RequestLength.returnDevString (p : List Byte) : Laws.RequestLength.Statement (.returnDevString p) := fun h => Laws.frameRequest_lengthOk _ h
theorem Laws.RequestLength.resynchronize (p : List Byte) : Laws.RequestLength.Statement (.resynchronize p) := fun h => Laws.frameRequest_lengthOk _ h
theorem Laws.RequestLength.requestConfDesc0 (p : List Byte) : Laws.RequestLength.Statement (.requestConfDesc0 p) := fun h => Laws.frameRequest_lengthOk _ h
theorem Laws.RequestLength.returnConfDesc0 (p : List Byte) : Laws.RequestLength.Statement (.returnConfDesc0 p) := fun h => Laws.frameRequest_lengthOk _ h
theorem Laws.RequestLength.requestConfDesc1 (p : List Byte) : Laws.RequestLength.Statement (.requestConfDesc1 p) := fun h => Laws.frameRequest_lengthOk _ h
theorem Laws.RequestLength.returnConfDesc1 (p : List Byte) : Laws.RequestLength.Statement (.returnConfDesc1 p) := fun h => Laws.frameRequest_lengthOk _ h
theorem Laws.RequestLength.requestConfDesc2 (p : List Byte) : Laws.RequestLength.Statement (.requestConfDesc2 p) := fun h => Laws.frameRequest_lengthOk _ h
theorem Laws.RequestLength.returnConfDesc2 (p : List Byte) : Laws.RequestLength.Statement (.returnConfDesc2 p) := fun h => Laws.frameRequest_lengthOk _ h
theorem Laws.RequestLength.navButtonStatus (p : List Byte) : Laws.RequestLength.Statement (.navButtonStatus p) := fun h => Laws.frameRequest_lengthOk _ h
theorem Laws.RequestLength.activeMcCable (p : List Byte) : Laws.RequestLength.Statement (.activeMcCable p) := fun h => Laws.frameRequest_lengthOk _ h
theorem Laws.RequestLength.chanButtonMode (p : List Byte) : Laws.RequestLength.Statement (.chanButtonMode p) := fun h => Laws.frameRequest_lengthOk _ h
theorem Laws.RequestLength.midiData (p : List Byte) : Laws.RequestLength.Statement (.midiData p) := fun h => Laws.frameRequest_lengthOk _ h

end Sys2Proof
end

