-- ==== Sys2Proof/Laws/Sysex.lean ====
section
/-! SUPPORT. What the accumulator's operations can do, said once. -/

namespace Sys2Proof.Machine

theorem SysexBuffer.put_length (S : SysexBuffer) {i : Nat} (b : Byte) (h : i < 2048) :
    (S.put i b).length.val = i + 1 := by
  simp only [SysexBuffer.put, Fin.ofNat]
  omega

@[simp] theorem SysexBuffer.put_droppedCount (S : SysexBuffer) (i : Nat) (b : Byte) :
    (S.put i b).droppedCount = S.droppedCount := rfl

@[simp] theorem SysexBuffer.put_bytes (S : SysexBuffer) (i : Nat) (b : Byte) :
    (S.put i b).bytes = Memory.write S.bytes i b := rfl

@[simp] theorem SysexBuffer.clear_bytes (S : SysexBuffer) : S.clear.bytes = S.bytes := rfl
@[simp] theorem SysexBuffer.clear_length (S : SysexBuffer) : S.clear.length = 0 := rfl
@[simp] theorem SysexBuffer.clear_droppedCount (S : SysexBuffer) : S.clear.droppedCount = 0 := rfl

/-- The slot of a closing EOX is an index of the array, in every state. -/
theorem SysexBuffer.eoxSlot_lt (S : SysexBuffer) (draw : Nat) : S.eoxSlot draw < 2048 := by
  unfold SysexBuffer.eoxSlot
  split
  · assumption
  · exact (Config.eoxOverrunSlot draw).isLt

/-- Where R22 (b) holds the slot of a closing EOX is `length`. -/
theorem SysexBuffer.eoxSlot_eq (S : SysexBuffer) (draw : Nat) (h : S.length.val ≤ 2047) :
    S.eoxSlot draw = S.length.val := by
  unfold SysexBuffer.eoxSlot
  rw [if_pos (by simp only [Config.sysexCapacity]; omega)]

/-- `SX.APPEND1`: which arm of R148 runs, and what it does. -/
theorem SysexBuffer.append1_cases (S : SysexBuffer) (draw : Nat) (b : Byte) :
    (S.isComplete = true ∧ S.append1 draw b = ⟨S, .refused, [.appendAfterComplete]⟩) ∨
    (S.isComplete = false ∧ S.length.val = 0 ∧ b = 0xF0 ∧ S.append1 draw b = ⟨S.put 0 0xF0, .continuing, []⟩) ∨
    (S.isComplete = false ∧ S.length.val = 0 ∧ b ≠ 0xF0 ∧ S.append1 draw b = ⟨S, .aborted, [.sysexBadStart]⟩) ∨
    (S.isComplete = false ∧ 0 < S.length.val ∧ b = 0xF0 ∧ S.append1 draw b =
      ⟨SysexBuffer.put { S with droppedCount := 0 } 0 0xF0, .continuing, [.sysexCancelled]⟩) ∨
    (S.isComplete = false ∧ 0 < S.length.val ∧ b = 0xF7 ∧ S.append1 draw b =
      ⟨S.put (S.eoxSlot draw) 0xF7, .complete (S.eoxSlot draw + 1), []⟩) ∨
    (S.isComplete = false ∧ 0 < S.length.val ∧ b ≠ 0xF0 ∧ b ≠ 0xF7 ∧ S.length.val < 2047 ∧
      S.append1 draw b = ⟨S.put S.length.val b, .continuing, []⟩) ∨
    (S.isComplete = false ∧ 2047 ≤ S.length.val ∧ b ≠ 0xF0 ∧ b ≠ 0xF7 ∧
      S.append1 draw b = ⟨{ S with droppedCount := satInc S.droppedCount }, .continuing, [.sysexByteDropped]⟩) := by
  unfold SysexBuffer.append1
  by_cases hc : S.isComplete = true
  · exact .inl ⟨hc, if_pos hc⟩
  rw [if_neg hc]
  have hc' : S.isComplete = false := by simpa using hc
  right
  by_cases h0 : S.length.val = 0
  · rw [if_pos h0]
    by_cases hb : b = 0xF0
    · exact .inl ⟨hc', h0, hb, if_pos hb⟩
    · exact .inr (.inl ⟨hc', h0, hb, if_neg hb⟩)
  rw [if_neg h0]
  have hp : 0 < S.length.val := Nat.pos_of_ne_zero h0
  refine .inr (.inr ?_)
  by_cases hf0 : b = 0xF0
  · exact .inl ⟨hc', hp, hf0, if_pos hf0⟩
  rw [if_neg hf0]
  right
  by_cases hf7 : b = 0xF7
  · exact .inl ⟨hc', hp, hf7, if_pos hf7⟩
  rw [if_neg hf7]
  right
  by_cases hl : S.length.val < Config.sysexCapacity - 1
  · exact .inl ⟨hc', hp, hf0, hf7, hl, if_pos hl⟩
  · exact .inr ⟨hc', not_lt.mp hl, hf0, hf7, if_neg hl⟩

@[simp] theorem SysexBuffer.append_nil (S : SysexBuffer) (draw : Nat) : S.append draw [] = ⟨S, .continuing, []⟩ := rfl

/-- `SX.APPEND` of one byte more: the rest is looked at only after `Continuing`. -/
theorem SysexBuffer.append_cons (S : SysexBuffer) (draw : Nat) (b : Byte) (bs : List Byte) :
    ((S.append1 draw b).result = .continuing ∧
      S.append draw (b :: bs) =
        ⟨((S.append1 draw b).now.append draw bs).now, ((S.append1 draw b).now.append draw bs).result,
          (S.append1 draw b).events ++ ((S.append1 draw b).now.append draw bs).events⟩) ∨
    ((S.append1 draw b).result ≠ .continuing ∧ S.append draw (b :: bs) = S.append1 draw b) := by
  by_cases h : (S.append1 draw b).result = .continuing
  · exact .inl ⟨h, by rw [SysexBuffer.append]; exact if_pos h⟩
  · exact .inr ⟨h, by rw [SysexBuffer.append]; exact if_neg h⟩

/-- `SX.SCAN_ABORT`: which arm of R157 runs, and what it does. -/
theorem SysexBuffer.scanAbort_cases (S : SysexBuffer) (draw : Nat) (bytes : List Byte) :
    (S.length.val = 0 ∧ S.scanAbort draw bytes = ⟨S, .continuing, []⟩) ∨
    (S.isComplete = true ∧ S.scanAbort draw bytes = ⟨S, .refused, [.appendAfterComplete]⟩) ∨
    (S.isComplete = false ∧ 0 < S.length.val ∧ 0xF7 ∈ bytes ∧ S.scanAbort draw bytes =
      ⟨S.put (S.eoxSlot draw) 0xF7, .complete (S.eoxSlot draw + 1), []⟩) ∨
    (S.isComplete = false ∧ 0 < S.length.val ∧ 0xF7 ∉ bytes ∧
      S.scanAbort draw bytes = ⟨S.clear, .aborted, [.sysexAbortedByMessage]⟩) := by
  unfold SysexBuffer.scanAbort
  by_cases h0 : S.length.val = 0
  · exact .inl ⟨h0, if_pos h0⟩
  rw [if_neg h0]
  right
  by_cases hc : S.isComplete = true
  · exact .inl ⟨hc, if_pos hc⟩
  rw [if_neg hc]
  have hc' : S.isComplete = false := by simpa using hc
  have hp : 0 < S.length.val := Nat.pos_of_ne_zero h0
  right
  by_cases hm : (0xF7 : Byte) ∈ bytes
  · refine .inl ⟨hc', hp, hm, ?_⟩
    rw [if_pos hm, SysexBuffer.append1, if_neg hc, if_neg h0, if_neg (by decide), if_pos rfl]
  · exact .inr ⟨hc', hp, hm, if_neg hm⟩

end Sys2Proof.Machine
end

