-- ==== Sys2Proof/Laws/RxPacket.lean ====
section
/-! SUPPORT. What `PC.RX_PACKET` can do, said once. -/

namespace Sys2Proof.Machine

/-- The SysEx route: a completed message is handed off, anything else returns nothing. -/
theorem SysexBuffer.rxSysex_cases (S : SysexBuffer) (draw : Nat) (u : Unpacked) :
    (∃ n, (S.append draw u.bytes).result = .complete n ∧
      S.rxSysex draw u = (S.append draw u.bytes).now.handOff u.cable (S.append draw u.bytes).events) ∨
    ((∀ n, (S.append draw u.bytes).result ≠ .complete n) ∧
      S.rxSysex draw u = ⟨(S.append draw u.bytes).now, none, (S.append draw u.bytes).events⟩) := by
  unfold SysexBuffer.rxSysex
  cases h : (S.append draw u.bytes).result with
  | complete n => exact .inl ⟨n, rfl, by simp only [h]⟩
  | continuing => exact .inr ⟨by simp, by simp only [h]⟩
  | aborted => exact .inr ⟨by simp, by simp only [h]⟩
  | refused => exact .inr ⟨by simp, by simp only [h]⟩

/-- The short route: with nothing in progress the packet is a message; else `SX.SCAN_ABORT` decides. -/
theorem SysexBuffer.rxShort_cases (S : SysexBuffer) (draw : Nat) (u : Unpacked) :
    (S.length.val = 0 ∧ S.rxShort draw u = ⟨S, some (.short u.cable u.bytes), []⟩) ∨
    (0 < S.length.val ∧ ∃ n, (S.scanAbort draw u.bytes).result = .complete n ∧
      S.rxShort draw u = (S.scanAbort draw u.bytes).now.handOff u.cable
        ((S.scanAbort draw u.bytes).events ++ [.sysexEoxInForeignPacket])) ∨
    (0 < S.length.val ∧ (∀ n, (S.scanAbort draw u.bytes).result ≠ .complete n) ∧
      S.rxShort draw u = ⟨(S.scanAbort draw u.bytes).now, some (.short u.cable u.bytes),
        (S.scanAbort draw u.bytes).events⟩) := by
  unfold SysexBuffer.rxShort
  by_cases h0 : 0 < S.length.val
  · rw [if_pos h0]
    cases h : (S.scanAbort draw u.bytes).result with
    | complete n => exact .inr (.inl ⟨h0, n, rfl, by simp only [h]⟩)
    | continuing => exact .inr (.inr ⟨h0, by simp, by simp only [h]⟩)
    | aborted => exact .inr (.inr ⟨h0, by simp, by simp only [h]⟩)
    | refused => exact .inr (.inr ⟨h0, by simp, by simp only [h]⟩)
  · exact .inl ⟨by omega, if_neg h0⟩

/-- `PC.RX_PACKET`: a reserved CIN changes no buffer, any other packet works on its cable's buffer by one route. -/
theorem State.rxPacket_cases (s : State) (p : Packet) :
    (Packet.unpack p = none ∧ s.rxPacket p = s.finish (.message none) [.reservedCin]) ∨
    ∃ u did, Packet.unpack p = some u ∧
      ((u.isSysex = true ∧ did = (s.sysex u.cable).rxSysex s.draws u) ∨
       (u.isSysex = false ∧ did = (s.sysex u.cable).rxShort s.draws u)) ∧
      s.rxPacket p = (s.setSysex u.cable did.now).finish (.message did.result) did.events := by
  unfold State.rxPacket
  cases h : Packet.unpack p with
  | none => exact .inl ⟨rfl, rfl⟩
  | some u =>
    cases hu : u.isSysex with
    | true => exact .inr ⟨u, _, rfl, .inl ⟨hu, rfl⟩, by simp [hu]⟩
    | false => exact .inr ⟨u, _, rfl, .inr ⟨hu, rfl⟩, by simp [hu]⟩

end Sys2Proof.Machine
end

