-- ==== Sys2Proof/Tests/Slice0.lean ====
section
/-! SUPPORT. Tests: the checks of WellFormed, the decoding of words written out from the spec's encodings, one-step effects
from spec file 95, and for every obligation with hypotheses a concrete state and operands that meet them. -/

namespace Sys2Proof.Tests

open Sys2Proof Sys2Proof.Machine

/-- The outcome of one operation; `none` where it stops. -/
def outcome (i : Instr) (s : State) : Option Seen :=
  match exec i s with
  | .next t => some (t.result, t.events)
  | .fault _ => none
  | .refused _ => none

/-- The state after one operation; the same state where it stops. -/
def after (i : Instr) (s : State) : State :=
  match exec i s with
  | .next t => t
  | .fault _ => s
  | .refused _ => s

/-- The state after reset with `cf[2]` replaced. -/
def framing (packet : Packet) (filled size : BitVec 2) (inSysex : Bool) : State :=
  State.reset.setCable 2 ⟨packet, filled, size, inSysex⟩

/-- The state after reset with `sx[1]` replaced. -/
def accumulating (bytes : Memory) (length : Fin 2049) : State :=
  State.reset.setSysex 1 ⟨bytes, length, 0⟩

/-- `sx[1]` holds `F0 01 02`, in progress. -/
def threeBytes : State := accumulating [(0, 0xF0), (1, 0x01), (2, 0x02)] 3

/-- `sx[1]` holds `F0 F7`, complete. -/
def completed : State := accumulating [(0, 0xF0), (1, 0xF7)] 2

/-- `sx[1]` is in progress with 2047 bytes stored, all but the first 0x00. -/
def fullBuffer : State := accumulating [(0, 0xF0)] 2047

/-- The receive framer in state `PAYLOAD`. -/
def receiving (len count : Byte) (payload : Memory) : State :=
  { State.reset with rx := ⟨.payload, 0x46, len, count, payload⟩ }

/-! ### The checks of WellFormed -/

theorem test_append_of_four_bytes_refused : WellFormed (.sxAppend 0 [0xF0, 1, 2, 3]) = false := by decide
theorem test_scan_of_no_byte_refused : WellFormed (.sxScanAbort 0 []) = false := by decide
theorem test_scan_of_four_bytes_refused : WellFormed (.sxScanAbort 0 [1, 2, 3, 4]) = false := by decide
theorem test_payload_of_256_bytes_refused :
    WellFormed (.cfWriteCmd 0x40 (List.replicate 256 0)) = false := by decide +kernel
theorem test_row_payload_of_256_bytes_refused :
    WellFormed (.returnConfDesc0 (List.replicate 256 0)) = false := by decide +kernel

/-- Every frame row has the check. -/
theorem test_every_row_payload_checked (p : List Byte) (h : payloadOk p = false) :
    WellFormed (.requestDevDesc p) = false ∧
    WellFormed (.returnDevDesc p) = false ∧
    WellFormed (.requestDevStringIdxs p) = false ∧
    WellFormed (.returnDevStringIdxs p) = false ∧
    WellFormed (.requestDevLangids p) = false ∧
    WellFormed (.returnDevLangids p) = false ∧
    WellFormed (.requestDevString p) = false ∧
    WellFormed (.returnDevString p) = false ∧
    WellFormed (.resynchronize p) = false ∧
    WellFormed (.requestConfDesc0 p) = false ∧
    WellFormed (.requestConfDesc1 p) = false ∧
    WellFormed (.returnConfDesc1 p) = false ∧
    WellFormed (.requestConfDesc2 p) = false ∧
    WellFormed (.returnConfDesc2 p) = false ∧
    WellFormed (.navButtonStatus p) = false ∧
    WellFormed (.activeMcCable p) = false ∧
    WellFormed (.chanButtonMode p) = false ∧
    WellFormed (.midiData p) = false :=
  ⟨h, h, h, h, h, h, h, h, h, h, h, h, h, h, h, h, h, h⟩

/-! ### Decoding of words written out from the encodings of spec file 30 -/

theorem test_decode_opsel :
    decode (.opsel [0b00000000]) = .ok .reset ∧
    decode (.opsel [0b11110001, 0x90]) = .ok (.pcFeed 15 0x90) ∧
    decode (.opsel [0b00000010, 0x09, 0x90, 0x3C, 0x7F]) = .ok (.pcUnpack ⟨0x09, 0x90, 0x3C, 0x7F⟩) ∧
    decode (.opsel [0b00000011, 0x04, 0xF0, 0x01, 0x02]) = .ok (.pcRxPacket ⟨0x04, 0xF0, 0x01, 0x02⟩) ∧
    decode (.opsel [0b00100100, 0xF7]) = .ok (.sxAppend1 2 0xF7) ∧
    decode (.opsel [0b00100101, 0xF0, 0x01]) = .ok (.sxAppend 2 [0xF0, 0x01]) ∧
    decode (.opsel [0b00110110, 0x90, 0x3C, 0x7F]) = .ok (.sxScanAbort 3 [0x90, 0x3C, 0x7F]) ∧
    decode (.opsel [0b01000111]) = .ok (.sxReset 4) ∧
    decode (.opsel [0b00001000, 0x46, 0x03, 0x02, 0x09, 0x04]) = .ok (.cfWriteCmd 0x46 [0x02, 0x09, 0x04]) ∧
    decode (.opsel [0b00001001, 0x2C, 0x01]) = .ok (.cfDrain 300) ∧
    decode (.opsel [0b00001010, 0xFF]) = .ok (.cfRxByte 0xFF) := by decide

theorem test_decode_packets :
    decode (.packet .unpack [0b00110000, 0x91, 0x02, 0x83]) = .ok (.cinReserved0 .unpack 3 0x91 0x02 0x83) ∧
    decode (.packet .rxPacket [0b10100001, 0x91, 0x02, 0x83]) = .ok (.cinReserved1 .rxPacket 10 0x91 0x02 0x83) ∧
    decode (.packet .unpack [0b00010010, 0x91, 0x02, 0x83]) = .ok (.cinSyscom2 .unpack 1 0x91 0x02 0x83) ∧
    decode (.packet .rxPacket [0b10000011, 0x91, 0x02, 0x83]) = .ok (.cinSyscom3 .rxPacket 8 0x91 0x02 0x83) ∧
    decode (.packet .unpack [0b11110100, 0x91, 0x02, 0x83]) = .ok (.cinSysexStart .unpack 15 0x91 0x02 0x83) ∧
    decode (.packet .rxPacket [0b01100101, 0x91, 0x02, 0x83]) = .ok (.cinSysexEnd1 .rxPacket 6 0x91 0x02 0x83) ∧
    decode (.packet .unpack [0b11010110, 0x91, 0x02, 0x83]) = .ok (.cinSysexEnd2 .unpack 13 0x91 0x02 0x83) ∧
    decode (.packet .rxPacket [0b01000111, 0x91, 0x02, 0x83]) = .ok (.cinSysexEnd3 .rxPacket 4 0x91 0x02 0x83) ∧
    decode (.packet .unpack [0b10111000, 0x91, 0x02, 0x83]) = .ok (.cinNoteOff .unpack 11 0x91 0x02 0x83) ∧
    decode (.packet .rxPacket [0b00101001, 0x91, 0x02, 0x83]) = .ok (.cinNoteOn .rxPacket 2 0x91 0x02 0x83) ∧
    decode (.packet .unpack [0b10011010, 0x91, 0x02, 0x83]) = .ok (.cinPolyPressure .unpack 9 0x91 0x02 0x83) ∧
    decode (.packet .rxPacket [0b00001011, 0x91, 0x02, 0x83]) = .ok (.cinControlChange .rxPacket 0 0x91 0x02 0x83) ∧
    decode (.packet .unpack [0b01111100, 0x91, 0x02, 0x83]) = .ok (.cinProgramChange .unpack 7 0x91 0x02 0x83) ∧
    decode (.packet .rxPacket [0b11101101, 0x91, 0x02, 0x83]) = .ok (.cinChannelPressure .rxPacket 14 0x91 0x02 0x83) ∧
    decode (.packet .unpack [0b01011110, 0x91, 0x02, 0x83]) = .ok (.cinPitchBend .unpack 5 0x91 0x02 0x83) ∧
    decode (.packet .rxPacket [0b11001111, 0x91, 0x02, 0x83]) = .ok (.cinSingleByte .rxPacket 12 0x91 0x02 0x83) := by decide

theorem test_decode_stream_bytes :
    decode (.midi .feed 0 [0b01011010]) = .ok (.data .feed 0 0b1011010) ∧
    decode (.midi .append1 5 [0b10001001]) = .ok (.stNoteOff .append1 5 9) ∧
    decode (.midi .feed 10 [0b10011001]) = .ok (.stNoteOn .feed 10 9) ∧
    decode (.midi .append1 15 [0b10101001]) = .ok (.stPolyPressure .append1 15 9) ∧
    decode (.midi .feed 4 [0b10111001]) = .ok (.stControlChange .feed 4 9) ∧
    decode (.midi .append1 9 [0b11001001]) = .ok (.stProgramChange .append1 9 9) ∧
    decode (.midi .feed 14 [0b11011001]) = .ok (.stChannelPressure .feed 14 9) ∧
    decode (.midi .append1 3 [0b11101001]) = .ok (.stPitchBend .append1 3 9) ∧
    decode (.midi .feed 8 [0b11110000]) = .ok (.stSysexStart .feed 8) ∧
    decode (.midi .append1 13 [0b11110001]) = .ok (.stSyscomF1 .append1 13) ∧
    decode (.midi .feed 2 [0b11110010]) = .ok (.stSyscomF2 .feed 2) ∧
    decode (.midi .append1 7 [0b11110011]) = .ok (.stSyscomF3 .append1 7) ∧
    decode (.midi .feed 12 [0b11110100]) = .ok (.stSingleF4 .feed 12) ∧
    decode (.midi .append1 1 [0b11110101]) = .ok (.stSingleF5 .append1 1) ∧
    decode (.midi .feed 6 [0b11110110]) = .ok (.stSingleF6 .feed 6) ∧
    decode (.midi .append1 11 [0b11110111]) = .ok (.stEox .append1 11) ∧
    decode (.midi .feed 0 [0b11111110]) = .ok (.stRealtime .feed 0 6) := by decide

theorem test_decode_frames :
    decode (.frame [0b01000000, 0b00000010, 0xA5, 0x5A]) = .ok (.requestDevDesc [0xA5, 0x5A]) ∧
    decode (.frame [0b01000001, 0b00000010, 0xA5, 0x5A]) = .ok (.returnDevDesc [0xA5, 0x5A]) ∧
    decode (.frame [0b01000010, 0b00000010, 0xA5, 0x5A]) = .ok (.requestDevStringIdxs [0xA5, 0x5A]) ∧
    decode (.frame [0b01000011, 0b00000010, 0xA5, 0x5A]) = .ok (.returnDevStringIdxs [0xA5, 0x5A]) ∧
    decode (.frame [0b01000100, 0b00000010, 0xA5, 0x5A]) = .ok (.requestDevLangids [0xA5, 0x5A]) ∧
    decode (.frame [0b01000101, 0b00000010, 0xA5, 0x5A]) = .ok (.returnDevLangids [0xA5, 0x5A]) ∧
    decode (.frame [0b01000110, 0b00000010, 0xA5, 0x5A]) = .ok (.requestDevString [0xA5, 0x5A]) ∧
    decode (.frame [0b01000111, 0b00000010, 0xA5, 0x5A]) = .ok (.returnDevString [0xA5, 0x5A]) ∧
    decode (.frame [0b01001000, 0b00000010, 0xA5, 0x5A]) = .ok (.resynchronize [0xA5, 0x5A]) ∧
    decode (.frame [0b01001001, 0b00000010, 0xA5, 0x5A]) = .ok (.requestConfDesc0 [0xA5, 0x5A]) ∧
    decode (.frame [0b01001010, 0b00000010, 0xA5, 0x5A]) = .ok (.returnConfDesc0 [0xA5, 0x5A]) ∧
    decode (.frame [0b01001011, 0b00000010, 0xA5, 0x5A]) = .ok (.requestConfDesc1 [0xA5, 0x5A]) ∧
    decode (.frame [0b01001100, 0b00000010, 0xA5, 0x5A]) = .ok (.returnConfDesc1 [0xA5, 0x5A]) ∧
    decode (.frame [0b01001101, 0b00000010, 0xA5, 0x5A]) = .ok (.requestConfDesc2 [0xA5, 0x5A]) ∧
    decode (.frame [0b01001110, 0b00000010, 0xA5, 0x5A]) = .ok (.returnConfDesc2 [0xA5, 0x5A]) ∧
    decode (.frame [0b01010000, 0b00000010, 0xA5, 0x5A]) = .ok (.navButtonStatus [0xA5, 0x5A]) ∧
    decode (.frame [0b01010001, 0b00000010, 0xA5, 0x5A]) = .ok (.activeMcCable [0xA5, 0x5A]) ∧
    decode (.frame [0b01010010, 0b00000010, 0xA5, 0x5A]) = .ok (.chanButtonMode [0xA5, 0x5A]) := by decide

/-- R115: with `HDR_MIDI_DATA = 0x60` (the example value of spec file 95, P3). -/
theorem test_decode_midi_data : frameInstr 0x60 0x60 [0xB0, 0x32, 0x4A] = .midiData [0xB0, 0x32, 0x4A] := by decide

/-- R113: an unassigned header is a frame like any other, with the example value of P3. -/
theorem test_decode_unassigned_header : frameInstr 0x60 0x99 [0x40] = .cfWriteCmd 0x99 [0x40] := by decide

/-- U12, and requests of the wrong length. -/
theorem test_decode_refusals :
    decode (.opsel [0x0B]) = .error .unassignedOpsel ∧ decode (.opsel [0xFF, 1]) = .error .unassignedOpsel ∧
    decode (.opsel []) = .error .tooShort ∧ decode (.opsel [0x10]) = .error .reservedBits ∧
    decode (.opsel [0x05, 1, 2, 3, 4]) = .error .tooLong ∧ decode (.opsel [0x06]) = .error .tooShort ∧
    decode (.packet .unpack [0x09, 0x90, 0x3C]) = .error .tooShort ∧ decode (.midi .feed 0 [1, 2]) = .error .tooLong ∧
    decode (.frame [0x40]) = .error .tooShort ∧ decode (.frame [0x40, 1]) = .error .tooShort ∧
    decode (.frame [0x40, 0, 9]) = .error .tooLong := by decide

theorem test_table_words :
    decodeTableWord 8 0x4 = some (.sxAppend1 0 0) ∧ decodeTableWord 8 0x9 = some (.cfDrain 0) ∧
    decodeTableWord 8 0x93 = some (.stNoteOn .feed 0 3) ∧
    decodeTableWord 16 0x4102 = some (.returnDevDesc [0, 0]) ∧
    decodeTableWord 32 0x3CC50700 = some (.cinProgramChange .unpack 3 0xC5 0x07 0x00) ∧
    decodeTableWord 8 0xB = some (.data .feed 0 0xB) ∧ decodeTableWord 4 0xB = none := by decide

theorem test_table_word_runs_first :
    step (State.reset.withFetchWord 16 0x4002) = exec (.requestDevDesc [0, 0]) { State.reset with draws := 1 } := rfl

/-! ### One step each, from the vectors of spec file 95 -/

/-- Section 2.1: `90 3C` then `7F`. -/
theorem test_feed_completes_note_on :
    outcome (.pcFeed 2 0x7F) (framing ⟨0x29, 0x90, 0x3C, 0x00⟩ 2 3 false) =
      some (.packet (some ⟨0x29, 0x90, 0x3C, 0x7F⟩), []) := by decide
/-- Section 2.1: `F0 01 F0`. -/
theorem test_feed_restarts_sysex :
    outcome (.pcFeed 2 0xF0) (framing ⟨0x24, 0xF0, 0x01, 0x00⟩ 2 3 true) = some (.packet none, [.midPacketStatus]) ∧
    (after (.pcFeed 2 0xF0) (framing ⟨0x24, 0xF0, 0x01, 0x00⟩ 2 3 true)).cable 2 =
      ⟨⟨0x24, 0xF0, 0x00, 0x00⟩, 1, 3, true⟩ := by decide
/-- Section 2.2: the unused byte is ignored; a reserved CIN is discarded. -/
theorem test_unpack :
    outcome (.pcUnpack ⟨0x0C, 0xC5, 0x07, 0xFF⟩) State.reset = some (.unpacked (some ⟨0, 0xC, [0xC5, 0x07]⟩), []) ∧
    outcome (.pcUnpack ⟨0x21, 0x81, 0x02, 0x03⟩) State.reset = some (.unpacked none, [.reservedCin]) := by decide
/-- Section 2.4: the foreign packet with an EOX; the packet of another cable. -/
theorem test_rx_packet_anomaly :
    outcome (.pcRxPacket ⟨0x1F, 0xF7, 0x00, 0x00⟩) threeBytes =
      some (.message (some (.sysex 1 [0xF0, 0x01, 0x02, 0xF7] 0)), [.sysexEoxInForeignPacket]) ∧
    outcome (.pcRxPacket ⟨0x19, 0x90, 0x3C, 0x7F⟩) threeBytes =
      some (.message (some (.short 1 [0x90, 0x3C, 0x7F])), [.sysexAbortedByMessage]) := by decide
/-- R163, its last paragraph: `SX.SCAN_ABORT` is `Refused` and the short message is delivered. -/
theorem test_rx_packet_after_complete :
    outcome (.pcRxPacket ⟨0x19, 0x90, 0x3C, 0x7F⟩) completed =
      some (.message (some (.short 1 [0x90, 0x3C, 0x7F])), [.appendAfterComplete]) := by decide
theorem test_rx_packet_other_cable :
    outcome (.pcRxPacket ⟨0x2F, 0xF8, 0x00, 0x00⟩) threeBytes = some (.message (some (.short 2 [0xF8])), []) ∧
    (after (.pcRxPacket ⟨0x2F, 0xF8, 0x00, 0x00⟩) threeBytes).sysex 1 = threeBytes.sysex 1 := by decide
/-- Section 2.3: the full buffer drops, restarts on 0xF0 and completes on 0xF7. -/
theorem test_append1_full_buffer :
    outcome (.sxAppend1 1 0x22) fullBuffer = some (.accum .continuing, [.sysexByteDropped]) ∧
    outcome (.sxAppend1 1 0xF7) fullBuffer = some (.accum (.complete 2048), []) ∧
    outcome (.sxAppend1 1 0xF0) fullBuffer = some (.accum .continuing, [.sysexCancelled]) := by decide
theorem test_append1_refused :
    outcome (.sxAppend1 1 0x55) completed = some (.accum .refused, [.appendAfterComplete]) := by decide
/-- Section 2.3 and R192. -/
theorem test_append :
    outcome (.sxAppend 1 [0x01, 0xF0, 0x02]) State.reset = some (.accum .aborted, [.sysexBadStart]) ∧
    outcome (.sxAppend 1 [0x55, 0xF0, 0x66]) fullBuffer =
      some (.accum .continuing, [.sysexByteDropped, .sysexCancelled]) := by decide
theorem test_scan_abort :
    outcome (.sxScanAbort 1 [0x90, 0x3C, 0x7F]) threeBytes = some (.accum .aborted, [.sysexAbortedByMessage]) ∧
    outcome (.sxScanAbort 1 [0xF7]) threeBytes = some (.accum (.complete 4), []) := by decide
theorem test_sysex_reset :
    ((after (.sxReset 1) completed).sysex 1).length = 0 ∧ outcome (.sxReset 1) completed = some (.noResult, []) := by
  decide
/-- Section 2.5. -/
theorem test_write_command :
    (after (.cfWriteCmd 0x46 [0x02, 0x09, 0x04]) { State.reset with txq := [0x40, 0x00] }).txq =
      [0x40, 0x00, 0x46, 0x03, 0x02, 0x09, 0x04] ∧
    (writeFrame (fun n => decide (n ≤ 16)) [0x40, 0x00, 0x46, 0x03, 0x02, 0x09, 0x04, 0x52, 0x01, 0x04] 0x41
      (List.replicate 18 0)).result = .dropped := by decide
/-- A write that exactly fills a queue of 257 bytes, and one more. -/
theorem test_write_command_fills :
    (writeFrame (fun n => decide (n ≤ 257)) (List.replicate 255 0) 0x48 []).result = .ok ∧
    (writeFrame (fun n => decide (n ≤ 257)) (List.replicate 256 0) 0x40 []).result = .dropped := by decide +kernel
theorem test_drain :
    outcome (.cfDrain 4) { State.reset with txq := [0x40, 0x00, 0x46, 0x03, 0x02] } =
      some (.bytes [0x40, 0x00, 0x46, 0x03], []) ∧
    (after (.cfDrain 4) { State.reset with txq := [0x40, 0x00, 0x46, 0x03, 0x02] }).txq = [0x02] := by decide
theorem test_rx_byte :
    outcome (.cfRxByte 0x04) (receiving 3 2 [(0, 0x02), (1, 0x09)]) =
      some (.frame (some ⟨0x46, [0x02, 0x09, 0x04]⟩), []) ∧
    outcome (.cfRxByte 0x00) { State.reset with rx := ⟨.len, 0x40, 0, 0, []⟩ } =
      some (.frame (some ⟨0x40, []⟩), []) := by decide
/-- Section 2.6. -/
theorem test_reset :
    (after .reset { framing ⟨0x29, 0x90, 0x3C, 0x00⟩ 2 3 false with framingErrCount := 7, txq := [1] }).cable 2 =
      CableFrame.reset ∧
    (after .reset { threeBytes with txDropCount := 1, txq := [1] }).txq = [] := by decide
/-- Section 2.7. -/
theorem test_counter_saturates :
    (after (.pcFeed 0 0x3C) { State.reset with framingErrCount := 0xFFFFFFFE }).framingErrCount = 0xFFFFFFFF ∧
    (after (.pcFeed 0 0x3C) { State.reset with framingErrCount := 0xFFFFFFFF }).framingErrCount = 0xFFFFFFFF := by
  decide
/-- Section 2.2: one vector for each CIN, cable 2, data bytes `81 02 03`. -/
theorem test_packet_rows_unpacked :
    outcome (.cinReserved0 .unpack 2 0x81 0x02 0x03) State.reset = some (.unpacked none, [.reservedCin]) ∧
    outcome (.cinReserved1 .unpack 2 0x81 0x02 0x03) State.reset = some (.unpacked none, [.reservedCin]) ∧
    outcome (.cinSyscom2 .unpack 2 0x81 0x02 0x03) State.reset = some (.unpacked (some ⟨2, 0x2, [0x81, 0x02]⟩), []) ∧
    outcome (.cinSyscom3 .unpack 2 0x81 0x02 0x03) State.reset = some (.unpacked (some ⟨2, 0x3, [0x81, 0x02, 0x03]⟩), []) ∧
    outcome (.cinSysexStart .unpack 2 0x81 0x02 0x03) State.reset = some (.unpacked (some ⟨2, 0x4, [0x81, 0x02, 0x03]⟩), []) ∧
    outcome (.cinSysexEnd1 .unpack 2 0x81 0x02 0x03) State.reset = some (.unpacked (some ⟨2, 0x5, [0x81]⟩), []) ∧
    outcome (.cinSysexEnd2 .unpack 2 0x81 0x02 0x03) State.reset = some (.unpacked (some ⟨2, 0x6, [0x81, 0x02]⟩), []) ∧
    outcome (.cinSysexEnd3 .unpack 2 0x81 0x02 0x03) State.reset = some (.unpacked (some ⟨2, 0x7, [0x81, 0x02, 0x03]⟩), []) := by decide

theorem test_packet_rows_unpacked_above_seven :
    outcome (.cinNoteOff .unpack 2 0x81 0x02 0x03) State.reset = some (.unpacked (some ⟨2, 0x8, [0x81, 0x02, 0x03]⟩), []) ∧
    outcome (.cinNoteOn .unpack 2 0x81 0x02 0x03) State.reset = some (.unpacked (some ⟨2, 0x9, [0x81, 0x02, 0x03]⟩), []) ∧
    outcome (.cinPolyPressure .unpack 2 0x81 0x02 0x03) State.reset = some (.unpacked (some ⟨2, 0xA, [0x81, 0x02, 0x03]⟩), []) ∧
    outcome (.cinControlChange .unpack 2 0x81 0x02 0x03) State.reset = some (.unpacked (some ⟨2, 0xB, [0x81, 0x02, 0x03]⟩), []) ∧
    outcome (.cinProgramChange .unpack 2 0x81 0x02 0x03) State.reset = some (.unpacked (some ⟨2, 0xC, [0x81, 0x02]⟩), []) ∧
    outcome (.cinChannelPressure .unpack 2 0x81 0x02 0x03) State.reset = some (.unpacked (some ⟨2, 0xD, [0x81, 0x02]⟩), []) ∧
    outcome (.cinPitchBend .unpack 2 0x81 0x02 0x03) State.reset = some (.unpacked (some ⟨2, 0xE, [0x81, 0x02, 0x03]⟩), []) ∧
    outcome (.cinSingleByte .unpack 2 0x81 0x02 0x03) State.reset = some (.unpacked (some ⟨2, 0xF, [0x81]⟩), []) := by decide
/-- Section 2.4, by rows: a SysEx packet while nothing is accumulated, and the end of one in progress. -/
theorem test_packet_rows_received :
    outcome (.cinSysexStart .rxPacket 0 0x01 0x02 0x03) State.reset = some (.message none, [.sysexBadStart]) ∧
    outcome (.cinSysexEnd1 .rxPacket 1 0xF7 0x00 0x00) threeBytes =
      some (.message (some (.sysex 1 [0xF0, 0x01, 0x02, 0xF7] 0)), []) ∧
    outcome (.cinSysexEnd1 .rxPacket 0 0xF6 0x00 0x00) State.reset = some (.message (some (.short 0 [0xF6])), []) ∧
    outcome (.cinReserved1 .rxPacket 1 0x01 0x02 0x03) threeBytes = some (.message none, [.reservedCin]) := by decide
/-- R124 to R128: the first byte of each class, on cable 2. -/
theorem test_byte_rows_start :
    (after (.stNoteOff .feed 2 0) State.reset).cable 2 = ⟨⟨0x28, 0x80, 0x00, 0x00⟩, 1, 3, false⟩ ∧
    (after (.stNoteOn .feed 2 0) State.reset).cable 2 = ⟨⟨0x29, 0x90, 0x00, 0x00⟩, 1, 3, false⟩ ∧
    (after (.stPolyPressure .feed 2 0) State.reset).cable 2 = ⟨⟨0x2A, 0xA0, 0x00, 0x00⟩, 1, 3, false⟩ ∧
    (after (.stControlChange .feed 2 0) State.reset).cable 2 = ⟨⟨0x2B, 0xB0, 0x00, 0x00⟩, 1, 3, false⟩ ∧
    (after (.stProgramChange .feed 2 0) State.reset).cable 2 = ⟨⟨0x2C, 0xC0, 0x00, 0x00⟩, 1, 2, false⟩ ∧
    (after (.stChannelPressure .feed 2 0) State.reset).cable 2 = ⟨⟨0x2D, 0xD0, 0x00, 0x00⟩, 1, 2, false⟩ ∧
    (after (.stPitchBend .feed 2 0) State.reset).cable 2 = ⟨⟨0x2E, 0xE0, 0x00, 0x00⟩, 1, 3, false⟩ ∧
    (after (.stSysexStart .feed 2) State.reset).cable 2 = ⟨⟨0x24, 0xF0, 0x00, 0x00⟩, 1, 3, true⟩ ∧
    (after (.stSyscomF1 .feed 2) State.reset).cable 2 = ⟨⟨0x22, 0xF1, 0x00, 0x00⟩, 1, 2, false⟩ ∧
    (after (.stSyscomF2 .feed 2) State.reset).cable 2 = ⟨⟨0x23, 0xF2, 0x00, 0x00⟩, 1, 3, false⟩ ∧
    (after (.stSyscomF3 .feed 2) State.reset).cable 2 = ⟨⟨0x22, 0xF3, 0x00, 0x00⟩, 1, 2, false⟩ := by decide
/-- R122, R123, R129, R130. -/
theorem test_byte_rows_other :
    outcome (.data .feed 2 0x3C) State.reset = some (.packet none, [.strayData]) ∧
    (after (.data .feed 2 0x03) (framing ⟨0x24, 0xF0, 0x01, 0x02⟩ 0 3 true)).cable 2 =
      ⟨⟨0x24, 0x03, 0x00, 0x00⟩, 1, 3, true⟩ ∧
    outcome (.stSingleF4 .feed 2) State.reset = some (.packet (some ⟨0x2F, 0xF4, 0x00, 0x00⟩), []) ∧
    outcome (.stSingleF5 .feed 2) State.reset = some (.packet (some ⟨0x2F, 0xF5, 0x00, 0x00⟩), []) ∧
    outcome (.stSingleF6 .feed 2) State.reset = some (.packet (some ⟨0x2F, 0xF6, 0x00, 0x00⟩), []) ∧
    outcome (.stEox .feed 2) State.reset = some (.packet (some ⟨0x25, 0xF7, 0x00, 0x00⟩), []) ∧
    outcome (.stEox .feed 2) (framing ⟨0x24, 0x66, 0x14, 0x00⟩ 2 3 true) =
      some (.packet (some ⟨0x27, 0x66, 0x14, 0xF7⟩), []) ∧
    outcome (.stRealtime .feed 2 0) State.reset = some (.packet (some ⟨0x2F, 0xF8, 0x00, 0x00⟩), []) := by decide
/-- R172: the bytes on the wire of each row with a payload of one byte (no length is checked, R183). -/
theorem test_frame_rows :
    (after (.requestDevDesc [0x07]) State.reset).txq = [0x40, 0x01, 0x07] ∧
    (after (.returnDevDesc [0x07]) State.reset).txq = [0x41, 0x01, 0x07] ∧
    (after (.requestDevStringIdxs [0x07]) State.reset).txq = [0x42, 0x01, 0x07] ∧
    (after (.returnDevStringIdxs [0x07]) State.reset).txq = [0x43, 0x01, 0x07] ∧
    (after (.requestDevLangids [0x07]) State.reset).txq = [0x44, 0x01, 0x07] ∧
    (after (.returnDevLangids [0x07]) State.reset).txq = [0x45, 0x01, 0x07] ∧
    (after (.requestDevString [0x07]) State.reset).txq = [0x46, 0x01, 0x07] ∧
    (after (.returnDevString [0x07]) State.reset).txq = [0x47, 0x01, 0x07] ∧
    (after (.resynchronize [0x07]) State.reset).txq = [0x48, 0x01, 0x07] ∧
    (after (.requestConfDesc0 [0x07]) State.reset).txq = [0x49, 0x01, 0x07] ∧
    (after (.returnConfDesc0 [0x07]) State.reset).txq = [0x4A, 0x01, 0x07] ∧
    (after (.requestConfDesc1 [0x07]) State.reset).txq = [0x4B, 0x01, 0x07] ∧
    (after (.returnConfDesc1 [0x07]) State.reset).txq = [0x4C, 0x01, 0x07] ∧
    (after (.requestConfDesc2 [0x07]) State.reset).txq = [0x4D, 0x01, 0x07] ∧
    (after (.returnConfDesc2 [0x07]) State.reset).txq = [0x4E, 0x01, 0x07] ∧
    (after (.navButtonStatus [0x07]) State.reset).txq = [0x50, 0x01, 0x07] ∧
    (after (.activeMcCable [0x07]) State.reset).txq = [0x51, 0x01, 0x07] ∧
    (after (.chanButtonMode [0x07]) State.reset).txq = [0x52, 0x01, 0x07] ∧
    (after (.midiData [0xB0]) State.reset).txq.tail = [0x01, 0xB0] := by decide

/-! ### Witnesses: a concrete state and operands for the hypotheses of each obligation -/

theorem witness_DecodeOfEncode :
    WellFormed (.sxScanAbort 15 [0x90, 0x3C, 0x7F]) = true ∧ WellFormed (.sxAppend 0 []) = true ∧
    WellFormed (.cfWriteCmd 0xFF (List.replicate 255 0xFF)) = true := by decide +kernel
theorem witness_DecodedIsWellFormed :
    decode (.opsel [0x16, 0x90]) = .ok (.sxScanAbort 1 [0x90]) := by decide
theorem witness_EveryDatumReachesItsOperation : (List.replicate 255 (0x55 : Byte)).length ≤ 255 := by decide +kernel
theorem witness_UnassignedOpselRefused :
    (0xB : Nibble) ≤ 0xB ∧ (0xB : Nibble) ≤ 0xF ∧
    (State.reset.request (.opsel [joinNibbles 3 0xF, 0x01])).inbox = .opsel (joinNibbles 3 0xF :: [0x01]) :: [] := by
  decide
theorem witness_StepRunsTheDecodedInstruction :
    (State.reset.request (.midi .feed 2 [0x90])).inbox = .midi .feed 2 [0x90] :: [] ∧
    decode (.midi .feed 2 [0x90]) = .ok (.stNoteOn .feed 2 0) := by decide
theorem witness_IdleStepChangesNothing : State.reset.inbox = [] := rfl
theorem witness_EveryOperationAnswers : WellFormed (.cfDrain 0) = true := rfl

theorem witness_FeedStrayData :
    (State.reset.cable 2).filled = 0 ∧ (0x7F : Byte) < 0x80 ∧ (State.reset.cable 2).inSysex = false := by decide
theorem witness_FeedContinuesSysex :
    ((framing ⟨0x24, 0xF0, 0x01, 0x02⟩ 0 3 true).cable 2).filled = 0 ∧ (0x00 : Byte) < 0x80 ∧
    ((framing ⟨0x24, 0xF0, 0x01, 0x02⟩ 0 3 true).cable 2).inSysex = true := by decide
theorem witness_FeedStartsAPacket :
    (State.reset.cable 2).filled = 0 ∧
    (∀ b ∈ ([0x80, 0xBF, 0xE0, 0xEF] : List Byte), (0x80 ≤ b ∧ b ≤ 0xBF) ∨ (0xE0 ≤ b ∧ b ≤ 0xEF)) ∧
    (∀ b ∈ ([0xC0, 0xDF] : List Byte), 0xC0 ≤ b ∧ b ≤ 0xDF) ∧
    (∀ b ∈ ([0xF1, 0xF3] : List Byte), b = 0xF1 ∨ b = 0xF3) := by decide
theorem witness_FeedOneByteMessage :
    (State.reset.cable 2).filled = 0 ∧
    (∀ b ∈ ([0xF4, 0xF5, 0xF6, 0xF8, 0xFF] : List Byte), b = 0xF4 ∨ b = 0xF5 ∨ b = 0xF6 ∨ 0xF8 ≤ b) := by decide
/-- Both stored places, complete and not complete. -/
theorem witness_FeedStoresADataByte :
    ∀ F ∈ ([⟨⟨0x29, 0x90, 0x00, 0x00⟩, 1, 3, false⟩, ⟨⟨0x29, 0x90, 0x3C, 0x00⟩, 2, 3, false⟩,
        ⟨⟨0x2C, 0xC0, 0x00, 0x00⟩, 1, 2, false⟩] : List CableFrame),
      (State.reset.setCable 2 F).cable 2 = F ∧ F.filled ≠ 0 ∧ F.filled < F.expectedSize ∧ F.filled ≤ 2 ∧
        (0x7F : Byte) < 0x80 := by decide
theorem witness_FeedEoxEndsASysexPacket :
    ∀ F ∈ ([⟨⟨0x24, 0xF0, 0x00, 0x00⟩, 1, 3, true⟩, ⟨⟨0x24, 0xF0, 0x01, 0x00⟩, 2, 3, true⟩] : List CableFrame),
      (State.reset.setCable 2 F).cable 2 = F ∧ F.filled ≠ 0 ∧ F.filled < F.expectedSize ∧
        loNibble F.packet.b0 = 0x4 := by decide
/-- A status byte other than an EOX in a SysEx packet, and an EOX in another packet. -/
theorem witness_FeedStatusInsideAPacket :
    (∀ F ∈ ([⟨⟨0x24, 0xF0, 0x00, 0x00⟩, 1, 3, true⟩] : List CableFrame),
      (State.reset.setCable 2 F).cable 2 = F ∧ F.filled ≠ 0 ∧ F.filled < F.expectedSize ∧ (0x80 : Byte) ≤ 0x80 ∧
        ¬((0x80 : Byte) = 0xF7 ∧ loNibble F.packet.b0 = 0x4)) ∧
    ∀ F ∈ ([⟨⟨0x29, 0x90, 0x00, 0x00⟩, 1, 3, false⟩] : List CableFrame),
      (State.reset.setCable 2 F).cable 2 = F ∧ F.filled ≠ 0 ∧ F.filled < F.expectedSize ∧ (0x80 : Byte) ≤ 0xF7 ∧
        ¬((0xF7 : Byte) = 0xF7 ∧ loNibble F.packet.b0 = 0x4) := by decide
theorem witness_FeedOverflowGuard :
    ∀ F ∈ ([⟨⟨0x2C, 0xC0, 0x00, 0x00⟩, 2, 2, false⟩, ⟨⟨0x29, 0x90, 0x00, 0x00⟩, 3, 3, false⟩] : List CableFrame),
      (State.reset.setCable 2 F).cable 2 = F ∧ F.filled ≠ 0 ∧ (F.expectedSize ≤ F.filled ∨ F.filled = 3) := by decide
theorem witness_FeedFrame : ∃ t, exec (.pcFeed 2 0x90) State.reset = .next t := ⟨_, rfl⟩

/-- One message of each form of R138. -/
theorem sample_messages :
    ∀ m ∈ ([[0xBF, 0x00, 0x7F], [0xE0, 0x00, 0x40], [0xC5, 0x07], [0xF1, 0x23], [0xF2, 0x10, 0x20], [0xFF],
      [0xF0, 0x01, 0x02, 0xF7], [0xF0, 0xF7]] : List (List Byte)), MessageForm m := by
  simp only [List.forall_mem_cons, List.not_mem_nil, false_implies, implies_true, and_true]
  exact ⟨.voice3 _ _ _ (by decide) (by decide) (by decide), .voice3 _ _ _ (by decide) (by decide) (by decide),
    .voice2 _ _ (by decide) (by decide) (by decide), .common2 _ _ (by decide) (by decide),
    .common3 _ _ (by decide) (by decide), .single _ (by decide), .sysex [0x01, 0x02] (by decide),
    .sysex [] (by decide)⟩
theorem witness_StreamRoundTrip :
    (∀ m ∈ ([[0xC5, 0x07], [0xF0, 0xF7]] : List (List Byte)), MessageForm m) ∧
    (State.reset.cable 2).filled = 0 ∧ (State.reset.cable 2).inSysex = false :=
  ⟨fun m h => sample_messages m (by
    simp only [List.mem_cons, List.not_mem_nil, or_false] at h ⊢
    rcases h with rfl | rfl <;> simp), by decide, by decide⟩
theorem witness_MessageRoundTrip :
    (∀ m ∈ ([[0xC5, 0x07], [0xF0, 0xF7]] : List (List Byte)), MessageForm m) ∧
    (State.reset.cable 2).filled = 0 ∧ (State.reset.cable 2).inSysex = false ∧
    (State.reset.sysex 2).length.val = 0 ∧ (State.reset.sysex 2).droppedCount = 0 ∧
    Memory.wf 2048 (State.reset.sysex 2).bytes = true ∧
    (∀ m ∈ ([[0xC5, 0x07], [0xF0, 0xF7]] : List (List Byte)), m.head? = some 0xF0 → m.length ≤ 2048) :=
  ⟨witness_StreamRoundTrip.1, by decide, by decide, by decide, by decide, by decide, by decide⟩
theorem witness_ByteRowsFed :
    (State.reset.cable 2).filled = 0 ∧ ((framing ⟨0x24, 0xF0, 0x01, 0x02⟩ 0 3 true).cable 2).filled = 0 ∧
    ((framing ⟨0x24, 0xF0, 0x01, 0x02⟩ 0 3 true).cable 2).inSysex = true := by decide

theorem witness_UnpackByCin :
    loNibble 0x31 ∈ ([0x0, 0x1] : List Nibble) ∧ loNibble 0xFF ∈ ([0x5, 0xF] : List Nibble) ∧
    loNibble 0x02 ∈ ([0x2, 0x6, 0xC, 0xD] : List Nibble) ∧
    loNibble 0xFE ∈ ([0x3, 0x4, 0x7, 0x8, 0x9, 0xA, 0xB, 0xE] : List Nibble) := by decide
/-- A packet completed by a data byte, and one that a status byte inside another packet returns. -/
theorem witness_UnpackOfAFedPacket :
    ((framing ⟨0x29, 0x90, 0x3C, 0x00⟩ 2 3 false).cable 2).Inv 2 ∧
    (∃ t, exec (.pcFeed 2 0x7F) (framing ⟨0x29, 0x90, 0x3C, 0x00⟩ 2 3 false) = .next t ∧
      t.result = .packet (some ⟨0x29, 0x90, 0x3C, 0x7F⟩)) ∧
    ∃ t, exec (.pcFeed 2 0xF8) (framing ⟨0x29, 0x90, 0x3C, 0x00⟩ 2 3 false) = .next t ∧
      t.result = .packet (some ⟨0x2F, 0xF8, 0x00, 0x00⟩) :=
  ⟨by decide, ⟨_, rfl, by decide⟩, ⟨_, rfl, by decide⟩⟩

theorem witness_AppendFirstByte :
    (State.reset.sysex 1).length.val = 0 ∧ Memory.wf 2048 (State.reset.sysex 1).bytes = true := by decide
theorem witness_AppendRestarts :
    (threeBytes.sysex 1).InProgress ∧ Memory.wf 2048 (threeBytes.sysex 1).bytes = true ∧
    (fullBuffer.sysex 1).InProgress ∧ Memory.wf 2048 (fullBuffer.sysex 1).bytes = true := by decide
theorem witness_AppendEoxCompletes :
    (fullBuffer.sysex 1).InProgress ∧ (fullBuffer.sysex 1).length.val ≤ 2047 ∧
    Memory.wf 2048 (fullBuffer.sysex 1).bytes = true := by decide
/-- Length 2046 and length 2047. -/
theorem witness_AppendStoresOrDrops :
    ((accumulating [(0, 0xF0)] 2046).sysex 1).InProgress ∧ (0x80 : Byte) ≠ 0xF0 ∧ (0x80 : Byte) ≠ 0xF7 ∧
    Memory.wf 2048 ((accumulating [(0, 0xF0)] 2046).sysex 1).bytes = true ∧
    ((accumulating [(0, 0xF0)] 2046).sysex 1).length.val ≤ 2046 ∧
    (fullBuffer.sysex 1).InProgress ∧ Memory.wf 2048 (fullBuffer.sysex 1).bytes = true ∧
    (fullBuffer.sysex 1).length.val = 2047 := by decide
theorem witness_AppendAfterCompleteRefused : (completed.sysex 1).isComplete = true := by decide
/-- A first byte that stops the fold and one that does not. -/
theorem witness_AppendIsAFold :
    (∃ t, exec (.sxAppend1 1 0x01) State.reset = .next t ∧ t.result ≠ .accum .continuing) ∧
    ∃ t, exec (.sxAppend1 1 0xF0) State.reset = .next t ∧ t.result = .accum .continuing :=
  ⟨⟨_, rfl, by decide⟩, ⟨_, rfl, by decide⟩⟩
theorem witness_ScanAbort :
    (State.reset.sysex 1).length.val = 0 ∧ (completed.sysex 1).isComplete = true ∧
    (threeBytes.sysex 1).InProgress ∧ 0xF7 ∈ ([0x90, 0xF7] : List Byte) ∧
    0xF7 ∉ ([0x90, 0x3C, 0x7F] : List Byte) := by decide
theorem witness_AccumulatorFrame :
    hiNibble 0x14 = 1 ∧ (∃ t, exec (.sxAppend1 1 0x33) threeBytes = .next t) ∧
    ∃ t, exec (.pcRxPacket ⟨0x14, 0xF0, 0x01, 0x02⟩) threeBytes = .next t :=
  ⟨by decide, ⟨_, rfl⟩, ⟨_, rfl⟩⟩
theorem witness_SysexCapacity :
    (∀ b ∈ ([0x00, 0x81] : List Byte), b ≠ 0xF0 ∧ b ≠ 0xF7) ∧ (State.reset.sysex 1).length.val = 0 ∧
    (State.reset.sysex 1).droppedCount = 0 ∧ Memory.wf 2048 (State.reset.sysex 1).bytes = true := by decide
theorem witness_ByteRowsAppended :
    (threeBytes.sysex 1).InProgress ∧ (threeBytes.sysex 1).length.val ≤ 2046 ∧
    Memory.wf 2048 (threeBytes.sysex 1).bytes = true := by decide

theorem witness_ReceiveReservedCin : loNibble 0x10 = 0x0 ∧ loNibble 0x11 = 0x1 := by decide
theorem witness_ReceiveShortMessage :
    Packet.unpack ⟨0x15, 0xF6, 0x00, 0x00⟩ = some ⟨1, 0x5, [0xF6]⟩ ∧ ((0x5 : Nibble) = 0x5 ∧ (0xF6 : Byte) ≠ 0xF7) ∧
    Packet.unpack ⟨0x19, 0x90, 0x3C, 0x7F⟩ = some ⟨1, 0x9, [0x90, 0x3C, 0x7F]⟩ ∧
    (0x9 : Nibble) ∈ ([0x2, 0x3, 0x8, 0x9, 0xA, 0xB, 0xC, 0xD, 0xE, 0xF] : List Nibble) ∧
    (State.reset.sysex 1).length.val = 0 := by decide
/-- A packet that completes the message and one that does not. -/
theorem witness_ReceiveSysexPacket :
    Packet.unpack ⟨0x15, 0xF7, 0x00, 0x00⟩ = some ⟨1, 0x5, [0xF7]⟩ ∧
    (∃ t, exec (.sxAppend 1 [0xF7]) threeBytes = .next t ∧ t.result = .accum (.complete 4)) ∧
    Packet.unpack ⟨0x14, 0x03, 0x04, 0x05⟩ = some ⟨1, 0x4, [0x03, 0x04, 0x05]⟩ ∧
    ∃ t, exec (.sxAppend 1 [0x03, 0x04, 0x05]) threeBytes = .next t ∧ t.result = .accum .continuing :=
  ⟨by decide, ⟨_, rfl, by decide⟩, by decide, ⟨_, rfl, by decide⟩⟩
/-- A packet without an EOX and one with an EOX, at the top length in progress, and a complete message not reset. -/
theorem witness_ReceiveAnomaly :
    Packet.unpack ⟨0x19, 0x90, 0x3C, 0x7F⟩ = some ⟨1, 0x9, [0x90, 0x3C, 0x7F]⟩ ∧
    0xF7 ∉ ([0x90, 0x3C, 0x7F] : List Byte) ∧
    Packet.unpack ⟨0x1F, 0xF7, 0x00, 0x00⟩ = some ⟨1, 0xF, [0xF7]⟩ ∧ 0xF7 ∈ ([0xF7] : List Byte) ∧
    (0x9 : Nibble) ∈ ([0x2, 0x3, 0x8, 0x9, 0xA, 0xB, 0xC, 0xD, 0xE, 0xF] : List Nibble) ∧
    (fullBuffer.sysex 1).InProgress ∧ (fullBuffer.sysex 1).length.val ≤ 2047 ∧
    Memory.wf 2048 (fullBuffer.sysex 1).bytes = true ∧ (completed.sysex 1).isComplete = true := by decide

/-- A queue holding `n` bytes. -/
def queued (n : Nat) : State := { State.reset with txq := List.replicate n 0 }

theorem queued_length (n : Nat) : (queued n).txq.length = n := List.length_replicate

theorem capacity_admits_a_frame : (queued 0).txq.length + (2 + 255) ≤ Config.txqCapacity := by
  rw [queued_length]
  unfold Config.txqCapacity
  omega

theorem full_queue_admits_no_frame (n : Nat) : n < (queued n).txq.length + (2 + 255) := by
  rw [queued_length]
  omega

/-- An empty queue takes a frame of the longest payload; a queue at its capacity takes none. -/
theorem witness_WriteCommand :
    (List.replicate 255 (0 : Byte)).length ≤ 255 ∧ (queued 0).txq.length + (2 + 255) ≤ Config.txqCapacity ∧
    Config.txqCapacity < (queued Config.txqCapacity).txq.length + (2 + 255) :=
  ⟨by decide +kernel, capacity_admits_a_frame, full_queue_admits_no_frame _⟩
theorem witness_FrameRowsWritten :
    (List.replicate 255 (0 : Byte)).length ≤ 255 ∧ (queued 0).txq.length + (2 + 255) ≤ Config.txqCapacity ∧
    Config.txqCapacity < (queued Config.txqCapacity).txq.length + (2 + 255) := witness_WriteCommand
theorem witness_OpenParametersInBounds : (List.replicate 255 (0 : Byte)).length ≤ 255 := by decide +kernel
theorem witness_LongPayloadRefused :
    sentFrame (.chanButtonMode (List.replicate 256 0)) = some ⟨0x52, List.replicate 256 0⟩ ∧
    255 < (List.replicate 256 (0 : Byte)).length := by decide +kernel
theorem witness_ReceiveHeaderAndLength :
    State.reset.rx.state = .hdr ∧ ({ State.reset with rx := ⟨.len, 0x40, 0, 0, []⟩ } : State).rx.state = .len ∧
    (0xFF : Byte) ≠ 0 := by decide
/-- A last byte at the top count and a byte that is not the last. -/
theorem witness_ReceivePayloadByte :
    (receiving 255 254 [(0, 0x02)]).rx.state = .payload ∧
    (receiving 255 254 [(0, 0x02)]).rx.count < (receiving 255 254 [(0, 0x02)]).rx.len ∧
    Memory.wf 255 (receiving 255 254 [(0, 0x02)]).rx.payload = true ∧
    (receiving 255 254 [(0, 0x02)]).rx.count + 1 = (receiving 255 254 [(0, 0x02)]).rx.len ∧
    (receiving 3 1 [(0, 0x02)]).rx.count < (receiving 3 1 [(0, 0x02)]).rx.len ∧
    (receiving 3 1 [(0, 0x02)]).rx.count + 1 ≠ (receiving 3 1 [(0, 0x02)]).rx.len := by decide
theorem witness_FramerFrame :
    (∃ t, exec (.cfWriteCmd 0x40 []) State.reset = .next t) ∧ (∃ t, exec (.cfDrain 3) State.reset = .next t) ∧
    ∃ t, exec (.cfRxByte 0x40) State.reset = .next t := ⟨⟨_, rfl⟩, ⟨_, rfl⟩, ⟨_, rfl⟩⟩
theorem witness_ReceiveInvertsEncode :
    State.reset.rx.state = .hdr ∧ Memory.wf 255 State.reset.rx.payload = true ∧
    (∀ f ∈ ([⟨0x40, []⟩, ⟨0x46, [0x02, 0x09, 0x04]⟩] : List Frame), f.payload.length ≤ 255) := by decide
/-- Two frames written, the drains cut inside the second. -/
theorem witness_QueueIsFirstInFirstOut :
    Instr.reset ∉ ([.cfWriteCmd 0x40 [], .cfWriteCmd 0x46 [0x02], .cfDrain 3, .cfDrain 100] : List Instr) ∧
    ∃ seen t, runOps [.cfWriteCmd 0x40 [], .cfWriteCmd 0x46 [0x02], .cfDrain 3, .cfDrain 100] State.reset =
      some (seen, t) ∧ acceptedFrames [.cfWriteCmd 0x40 [], .cfWriteCmd 0x46 [0x02], .cfDrain 3, .cfDrain 100] seen =
        [⟨0x40, []⟩, ⟨0x46, [0x02]⟩] := ⟨by decide, _, _, rfl, by decide⟩
theorem witness_FramesCrossTheLink :
    Instr.reset ∉ ([.cfWriteCmd 0x40 [], .cfWriteCmd 0x46 [0x02], .cfDrain 3, .cfDrain 100] : List Instr) ∧
    (∃ seen t, runOps [.cfWriteCmd 0x40 [], .cfWriteCmd 0x46 [0x02], .cfDrain 3, .cfDrain 100] State.reset =
      some (seen, t) ∧ t.txq = []) ∧ State.reset.txq = [] ∧ State.reset.rx.state = .hdr ∧
    Memory.wf 255 State.reset.rx.payload = true := ⟨by decide, ⟨_, _, rfl, rfl⟩, rfl, rfl, by decide⟩
theorem witness_PayloadSizes :
    (0x51 : Byte) ∈ ([0x40, 0x42, 0x44, 0x48, 0x49, 0x4B, 0x4D, 0x51] : List Byte) ∧
    (0x4E : Byte) ∈ ([0x4A, 0x4C, 0x4E] : List Byte) ∧ (0x52 : Byte) ∈ ([0x50, 0x52] : List Byte) ∧
    (0x4F : Byte) ∉ Config.assignedHeaders := by decide

theorem witness_CountersCountEvents :
    Instr.pcFeed 0 0x3C ≠ .reset ∧ ∃ t, exec (.pcFeed 0 0x3C) State.reset = .next t ∧ t.events = [.strayData] :=
  ⟨by decide, _, rfl, by decide⟩

/-- `sx[1]` in progress and a byte of it waiting in the inbox. -/
theorem witness_StepKeepsMemoryForm :
    (threeBytes.request (.midi .append1 1 [0x33])).memoryWf ∧
    ∃ t, step (threeBytes.request (.midi .append1 1 [0x33])) = .next t ∧ t.result = .accum .continuing :=
  ⟨by unfold State.memoryWf; decide, _, rfl, by decide⟩
theorem witness_StepKeepsInvariants :
    (threeBytes.request (.midi .append1 1 [0x33])).memoryWf ∧ (threeBytes.request (.midi .append1 1 [0x33])).Inv ∧
    ∃ t, step (threeBytes.request (.midi .append1 1 [0x33])) = .next t ∧ t.result = .accum .continuing :=
  ⟨by unfold State.memoryWf; decide,
   ⟨by decide, by decide, by decide, Nat.zero_le _⟩, _, rfl, by decide⟩
/-- Two states that differ in everything that has no meaning after reset. -/
theorem witness_MeaninglessStateIsNeverSeen :
    State.reset.memoryWf ∧
    ({ (State.reset.setCable 2 ⟨⟨0x29, 0x90, 0x3C, 0x7F⟩, 0, 3, false⟩).setSysex 1 ⟨[(5, 0x11)], 0, 0⟩ with
      rx := ⟨.hdr, 0x46, 3, 3, [(0, 0x02)]⟩ } : State).memoryWf ∧
    State.reset.SameMeaning { (State.reset.setCable 2 ⟨⟨0x29, 0x90, 0x3C, 0x7F⟩, 0, 3, false⟩).setSysex 1
      ⟨[(5, 0x11)], 0, 0⟩ with rx := ⟨.hdr, 0x46, 3, 3, [(0, 0x02)]⟩ } ∧
    ∃ t, exec (.cfRxByte 0x40) State.reset = .next t := by
  refine ⟨by unfold State.memoryWf; decide, by unfold State.memoryWf; decide, ?_, _, rfl⟩
  unfold State.SameMeaning CableFrame.SameMeaning SysexBuffer.SameMeaning RxFramer.SameMeaning
  decide +kernel
theorem witness_CablesAreIndependent :
    (1 : Cable) ≠ 2 ∧ hiNibble 0x14 = 1 ∧ hiNibble 0x29 = 2 := by decide

end Sys2Proof.Tests
end

/-! PROOFS. The scope family: what every instruction amounts to, the fields that are the model's own, the step around
`exec`, the bounds of the open parameters. -/

namespace Sys2Proof.Machine

/-! ### What the operations leave of the model's own fields (notes/assumptions/1.md, 8.md) -/

@[simp] theorem State.feed_inbox (s : State) (c : Cable) (b : Byte) : (s.feed c b).inbox = s.inbox := rfl
@[simp] theorem State.feed_draws (s : State) (c : Cable) (b : Byte) : (s.feed c b).draws = s.draws := rfl
@[simp] theorem State.unpack_inbox (s : State) (p : Packet) : (s.unpack p).inbox = s.inbox := rfl
@[simp] theorem State.unpack_draws (s : State) (p : Packet) : (s.unpack p).draws = s.draws := rfl
@[simp] theorem State.append1_inbox (s : State) (c : Cable) (b : Byte) : (s.append1 c b).inbox = s.inbox := rfl
@[simp] theorem State.append1_draws (s : State) (c : Cable) (b : Byte) : (s.append1 c b).draws = s.draws := rfl

@[simp] theorem State.rxPacket_inbox (s : State) (p : Packet) : (s.rxPacket p).inbox = s.inbox := by
  obtain ⟨-, h⟩ | ⟨u, did, -, -, h⟩ := s.rxPacket_cases p <;> simp [h]

@[simp] theorem State.rxPacket_draws (s : State) (p : Packet) : (s.rxPacket p).draws = s.draws := by
  obtain ⟨-, h⟩ | ⟨u, did, -, -, h⟩ := s.rxPacket_cases p <;> simp [h]

@[simp] theorem State.giveByte_inbox (s : State) (op : ByteOp) (c : Cable) (b : Byte) :
    (s.giveByte op c b).inbox = s.inbox := by
  cases op with
  | feed => exact s.feed_inbox c b
  | append1 => exact s.append1_inbox c b

@[simp] theorem State.giveByte_draws (s : State) (op : ByteOp) (c : Cable) (b : Byte) :
    (s.giveByte op c b).draws = s.draws := by
  cases op with
  | feed => exact s.feed_draws c b
  | append1 => exact s.append1_draws c b

@[simp] theorem State.givePacket_inbox (s : State) (op : PacketOp) (p : Packet) :
    (s.givePacket op p).inbox = s.inbox := by
  cases op with
  | unpack => exact s.unpack_inbox p
  | rxPacket => exact s.rxPacket_inbox p

@[simp] theorem State.givePacket_draws (s : State) (op : PacketOp) (p : Packet) :
    (s.givePacket op p).draws = s.draws := by
  cases op with
  | unpack => exact s.unpack_draws p
  | rxPacket => exact s.rxPacket_draws p

/-! ### What an instruction amounts to -/

/-- An instruction that sends a frame is `CF.WRITE_CMD` of that frame. -/
theorem exec_of_sentFrame {i : Instr} {frame : Frame} (h : sentFrame i = some frame) (s : State) :
    exec i s = s.writeCmd frame.header frame.payload := by
  unfold sentFrame at h
  split at h <;> cases h <;> rfl

/-- The one check of an instruction that sends a frame is the length of the payload (R93). -/
theorem wellFormed_of_sentFrame {i : Instr} {frame : Frame} (h : sentFrame i = some frame) :
    WellFormed i = true ↔ frame.payload.length ≤ 255 := by
  have hcheck : WellFormed i = payloadOk frame.payload := by
    unfold sentFrame at h
    split at h <;> cases h <;> rfl
  rw [hcheck]
  exact decide_eq_true_iff

/-- The 63 rows by what they do: a byte, a packet or a frame given to the operation that takes one, or one of the six
operations that no row of another format reaches. -/
theorem exec_cases (i : Instr) :
    (∃ op c b, ∀ s, exec i s = .next (s.giveByte op c b)) ∨
    (∃ op p, ∀ s, exec i s = .next (s.givePacket op p)) ∨
    (∃ frame, sentFrame i = some frame) ∨
    i = .reset ∨ (∃ c bytes, i = .sxAppend c bytes) ∨ (∃ c bytes, i = .sxScanAbort c bytes) ∨
    (∃ c, i = .sxReset c) ∨ (∃ k, i = .cfDrain k) ∨ (∃ b, i = .cfRxByte b) := by
  cases i with
  | pcFeed c b => exact .inl ⟨.feed, c, b, fun _ => rfl⟩
  | sxAppend1 c b => exact .inl ⟨.append1, c, b, fun _ => rfl⟩
  | data | stNoteOff | stNoteOn | stPolyPressure | stControlChange | stProgramChange | stChannelPressure
  | stPitchBend | stSysexStart | stSyscomF1 | stSyscomF2 | stSyscomF3 | stSingleF4 | stSingleF5 | stSingleF6
  | stEox | stRealtime => exact .inl ⟨_, _, _, fun _ => rfl⟩
  | pcUnpack p => exact .inr (.inl ⟨.unpack, p, fun _ => rfl⟩)
  | pcRxPacket p => exact .inr (.inl ⟨.rxPacket, p, fun _ => rfl⟩)
  | cinReserved0 | cinReserved1 | cinSyscom2 | cinSyscom3 | cinSysexStart | cinSysexEnd1 | cinSysexEnd2
  | cinSysexEnd3 | cinNoteOff | cinNoteOn | cinPolyPressure | cinControlChange | cinProgramChange
  | cinChannelPressure | cinPitchBend | cinSingleByte => exact .inr (.inl ⟨_, _, fun _ => rfl⟩)
  | cfWriteCmd | requestDevDesc | returnDevDesc | requestDevStringIdxs | returnDevStringIdxs | requestDevLangids
  | returnDevLangids | requestDevString | returnDevString | resynchronize | requestConfDesc0 | returnConfDesc0
  | requestConfDesc1 | returnConfDesc1 | requestConfDesc2 | returnConfDesc2 | navButtonStatus | activeMcCable
  | chanButtonMode | midiData => exact .inr (.inr (.inl ⟨_, rfl⟩))
  | reset | sxAppend | sxScanAbort | sxReset | cfDrain | cfRxByte => simp

/-- A frame that has an encoding is answered, whether the queue takes it or not. -/
theorem State.writeCmd_answers (s : State) (header : Byte) {payload : List Byte} (h : payload.length ≤ 255) :
    ∃ t, s.writeCmd header payload = .next t ∧ t.inbox = s.inbox ∧ t.draws = s.draws := by
  obtain ⟨-, hw⟩ | ⟨hlong, -⟩ := s.writeCmd_cases header payload
  · exact ⟨_, hw, rfl, rfl⟩
  · omega

/-- Settles O8, by the case split of `exec_cases`: a frame is the only datum that can be refused, and a well-formed
instruction carries none that is. -/
theorem everyOperationAnswers : Obligations.EveryOperationAnswers := by
  intro i s hwf
  obtain ⟨op, c, b, h⟩ | ⟨op, p, h⟩ | ⟨frame, h⟩ | rfl | ⟨c, bytes, rfl⟩ | ⟨c, bytes, rfl⟩ | ⟨c, rfl⟩ | ⟨k, rfl⟩ |
    ⟨b, rfl⟩ := exec_cases i
  · exact ⟨_, h s, s.giveByte_inbox op c b, s.giveByte_draws op c b⟩
  · exact ⟨_, h s, s.givePacket_inbox op p, s.givePacket_draws op p⟩
  · rw [exec_of_sentFrame h]
    exact s.writeCmd_answers frame.header ((wellFormed_of_sentFrame h).mp hwf)
  all_goals exact ⟨_, rfl, rfl, rfl⟩

/-! ### The step around `exec` -/

/-- The fetch takes the first request out of the inbox and advances the draw counter. -/
theorem State.fetch_cons {s : State} {r : Request} {rest : List Request} (h : s.inbox = r :: rest) :
    s.fetch = some (r, { s with inbox := rest, draws := s.draws + 1 }) := by
  obtain ⟨hnil, -⟩ | ⟨r', rest', hcons, hfetch⟩ := s.fetch_spec
  · simp [hnil] at h
  · obtain ⟨rfl, rfl⟩ := List.cons.inj (hcons.symm.trans h)
    exact hfetch

theorem step_of_decode_ok {s t : State} {r : Request} {i : Instr} (hfetch : s.fetch = some (r, t))
    (hdecode : decode r = .ok i) : step s = exec i t := by
  simp only [step, hfetch, hdecode]

/-- Settles O6, from what the fetch takes and what the decoder answers. -/
theorem stepRunsTheDecodedInstruction : Obligations.StepRunsTheDecodedInstruction :=
  fun _ _ _ _ hinbox hdecode => step_of_decode_ok (State.fetch_cons hinbox) hdecode

end Sys2Proof.Machine

/-! ### The open parameters -/

namespace Sys2Proof

theorem Config.le_txqCapacity : 257 ≤ Config.txqCapacity := Nat.le_add_left 257 _

/-- `HDR_MIDI_DATA` is unassigned, whatever byte the open parameter is taken from (R115). -/
theorem Config.hdrMidiData_unassigned : Config.hdrMidiData ∉ Config.assignedHeaders :=
  Config.unassigned_of_choice Config.hdrMidiDataChoice

/-- Settles O43: the longest frame has 2 + 255 bytes, the least capacity. -/
theorem openParametersInBounds : Obligations.OpenParametersInBounds := by
  refine ⟨Config.le_txqCapacity, Config.hdrMidiData_unassigned, fun header payload hlen => ?_⟩
  calc (Machine.encodeFrame header payload).length
      = payload.length + 2 := Machine.encodeFrame_length header payload
    _ ≤ 257 := by omega
    _ ≤ Config.txqCapacity := Config.le_txqCapacity

end Sys2Proof

/-! PROOFS. The state family: what every instruction does to the state, said once for all 63 rows; from it the frame of
each operation, the counters, the queue, the invariants, the state that has no meaning, and the independence of the
cables. -/

namespace Sys2Proof.Machine

/-! ### Counters (R24 to R27) -/

/-- Settles O55, by induction on the number of increments. -/
theorem countersSaturate : Obligations.CountersSaturate := by
  intro n r
  induction n with
  | zero => have := r.isLt; simp only [Function.iterate_zero, id_eq]; omega
  | succ n ih => rw [Function.iterate_succ_apply', satInc_toNat, ih]; omega

/-- Counting the events of a list is incrementing once for each of them that names the counter. -/
theorem countEvents_eq_iterate (which : EventCounter) (es : List Event) (r : Counter) :
    countEvents which es r = satInc^[(es.filter fun e => decide (e.counter = which)).length] r := by
  induction es generalizing r with
  | nil => rfl
  | cons e es ih => by_cases h : e.counter = which <;> simp [h, ih]

theorem countEvents_comm (which : EventCounter) (es fs : List Event) (r : Counter) :
    countEvents which es (countEvents which fs r) = countEvents which fs (countEvents which es r) := by
  simp only [countEvents_eq_iterate, ← Function.iterate_add_apply, Nat.add_comm]

theorem countEvents_of_forall_ne {which : EventCounter} {es : List Event} (h : ∀ e ∈ es, e.counter ≠ which)
    (r : Counter) : countEvents which es r = r := by
  have hnone : (es.filter fun e => decide (e.counter = which)) = [] := by simpa using h
  simp [countEvents_eq_iterate, hnone]

/-! ### What an operation does to one cable (R12, R18)

`CableOp` lists the operations that work on one cable's frame and buffer, or on none; `State.onCable` is such an
operation on the state. `Effect` adds the operations on the queue and the receive framer, and `exec_effect` says that
every instruction that is not refused has one of these effects. -/

/-- `PC.RX_PACKET` on the cable's buffer, which a reserved CIN leaves as it is (R163, R169). -/
def SysexBuffer.rxPacket (S : SysexBuffer) (draw : Nat) (p : Packet) : Did SysexBuffer (Option Message) :=
  match Packet.unpack p with
  | none => ⟨S, none, [.reservedCin]⟩
  | some u => if u.isSysex then S.rxSysex draw u else S.rxShort draw u

/-- The operations that read and write nothing but one cable's frame and buffer, and the shared counters. -/
inductive CableOp where
  | feed (b : Byte)
  | unpack (p : Packet)
  | rxPacket (p : Packet)
  | append1 (b : Byte)
  | append (bytes : List Byte)
  | scanAbort (bytes : List Byte)
  | clear

/-- What an operation of cable `c` does to the cable's frame and buffer. -/
def CableOp.run (op : CableOp) (c : Cable) (F : CableFrame) (S : SysexBuffer) (draw : Nat) :
    Did (CableFrame × SysexBuffer) OpResult :=
  match op with
  | .feed b => ⟨((F.feed c b).now, S), .packet (F.feed c b).result, (F.feed c b).events⟩
  | .unpack p => ⟨(F, S), .unpacked (Packet.unpack p), unpackEvents (Packet.unpack p)⟩
  | .rxPacket p => ⟨(F, (S.rxPacket draw p).now), .message (S.rxPacket draw p).result, (S.rxPacket draw p).events⟩
  | .append1 b => ⟨(F, (S.append1 draw b).now), .accum (S.append1 draw b).result, (S.append1 draw b).events⟩
  | .append bs => ⟨(F, (S.append draw bs).now), .accum (S.append draw bs).result, (S.append draw bs).events⟩
  | .scanAbort bs =>
    ⟨(F, (S.scanAbort draw bs).now), .accum (S.scanAbort draw bs).result, (S.scanAbort draw bs).events⟩
  | .clear => ⟨(F, S.clear), .noResult, []⟩

/-- What an operation does to `cf[c]` and `sx[c]`. -/
def State.cableDid (s : State) (c : Cable) (op : CableOp) : Did (CableFrame × SysexBuffer) OpResult :=
  op.run c (s.cable c) (s.sysex c) s.draws

/-- The state after an operation of cable `c`. -/
def State.onCable (s : State) (c : Cable) (op : CableOp) : State :=
  ((s.setCable c (s.cableDid c op).now.1).setSysex c (s.cableDid c op).now.2).finish (s.cableDid c op).result
    (s.cableDid c op).events

section
variable (s : State) (c : Cable) (op : CableOp)

theorem State.onCable_cable (d : Cable) :
    (s.onCable c op).cable d = if d = c then (s.cableDid c op).now.1 else s.cable d := by
  unfold State.onCable
  split
  · next h => subst h; simp
  · next h => simp [State.setCable_cable_other _ _ h]

theorem State.onCable_sysex (d : Cable) :
    (s.onCable c op).sysex d = if d = c then (s.cableDid c op).now.2 else s.sysex d := by
  unfold State.onCable
  split
  · next h => subst h; simp
  · next h => simp [State.setSysex_sysex_other _ _ h]

theorem State.onCable_cf : (s.onCable c op).cf = (s.setCable c (s.cableDid c op).now.1).cf := rfl
theorem State.onCable_sx : (s.onCable c op).sx = (s.setSysex c (s.cableDid c op).now.2).sx := rfl
@[simp] theorem State.onCable_txq : (s.onCable c op).txq = s.txq := rfl
@[simp] theorem State.onCable_rx : (s.onCable c op).rx = s.rx := rfl
@[simp] theorem State.onCable_result : (s.onCable c op).result = (s.cableDid c op).result := rfl
@[simp] theorem State.onCable_events : (s.onCable c op).events = (s.cableDid c op).events := rfl
@[simp] theorem State.onCable_framingErrCount : (s.onCable c op).framingErrCount =
    countEvents .framingErr (s.cableDid c op).events s.framingErrCount := rfl
@[simp] theorem State.onCable_txDropCount : (s.onCable c op).txDropCount =
    countEvents .txDrop (s.cableDid c op).events s.txDropCount := rfl

/-- An operation that keeps `sx[c]` writes the frame only. -/
theorem State.onCable_of_buffer_kept (h : (s.cableDid c op).now.2 = s.sysex c) :
    s.onCable c op = (s.setCable c (s.cableDid c op).now.1).finish (s.cableDid c op).result
      (s.cableDid c op).events := by
  rw [State.onCable, h, ← State.setCable_sysex s c c (s.cableDid c op).now.1, State.setSysex_self]

/-- An operation that keeps `cf[c]` writes the buffer only. -/
theorem State.onCable_of_frame_kept (h : (s.cableDid c op).now.1 = s.cable c) :
    s.onCable c op = (s.setSysex c (s.cableDid c op).now.2).finish (s.cableDid c op).result
      (s.cableDid c op).events := by
  rw [State.onCable, h, State.setCable_self]

end

theorem State.feed_eq_onCable (s : State) (c : Cable) (b : Byte) : s.feed c b = s.onCable c (.feed b) :=
  (s.onCable_of_buffer_kept c (.feed b) rfl).symm

theorem State.append1_eq_onCable (s : State) (c : Cable) (b : Byte) :
    s.append1 c b = s.onCable c (.append1 b) :=
  (s.onCable_of_frame_kept c (.append1 b) rfl).symm

theorem exec_sxAppend (c : Cable) (bs : List Byte) (s : State) :
    exec (.sxAppend c bs) s = .next (s.onCable c (.append bs)) :=
  congrArg Host.Outcome.next (s.onCable_of_frame_kept c (.append bs) rfl).symm

theorem exec_sxScanAbort (c : Cable) (bs : List Byte) (s : State) :
    exec (.sxScanAbort c bs) s = .next (s.onCable c (.scanAbort bs)) :=
  congrArg Host.Outcome.next (s.onCable_of_frame_kept c (.scanAbort bs) rfl).symm

theorem exec_sxReset (c : Cable) (s : State) : exec (.sxReset c) s = .next (s.onCable c .clear) :=
  congrArg Host.Outcome.next (s.onCable_of_frame_kept c .clear rfl).symm

/-- `PC.UNPACK` changes no cable, so any cable stands for it. -/
theorem State.unpack_eq_onCable (s : State) (c : Cable) (p : Packet) : s.unpack p = s.onCable c (.unpack p) := by
  rw [s.onCable_of_frame_kept c (.unpack p) rfl]
  exact congrArg (State.finish · _ _) (s.setSysex_self c).symm

theorem State.rxPacket_eq_onCable (s : State) (p : Packet) :
    s.rxPacket p = s.onCable (Packet.cable p) (.rxPacket p) := by
  rw [s.onCable_of_frame_kept _ _ rfl]
  obtain ⟨-, hu⟩ | ⟨n, -, hu⟩ := Packet.unpack_cases p <;>
    simp only [State.rxPacket, State.cableDid, CableOp.run, SysexBuffer.rxPacket, hu]
  rw [State.setSysex_self]; rfl

/-! ### What every instruction does -/

/-- The state after `CF.WRITE_CMD` of a frame that has an encoding (R173). -/
def State.enqueue (s : State) (frame : Frame) : State :=
  { s with txq := (writeFrame Config.txqAdmits s.txq frame.header frame.payload).now }.finish
    (.write (writeFrame Config.txqAdmits s.txq frame.header frame.payload).result)
    (writeFrame Config.txqAdmits s.txq frame.header frame.payload).events

/-- The state after `CF.DRAIN` (R175). -/
def State.drain (s : State) (k : Nat) : State :=
  { s with txq := s.txq.drop k }.finish (.bytes (s.txq.take k)) []

/-- The state after `CF.RX_BYTE` (R176). -/
def State.rxByte (s : State) (b : Byte) : State :=
  { s with rx := (s.rx.receive s.draws b).1 }.finish (.frame (s.rx.receive s.draws b).2) []

@[simp] theorem State.enqueue_result (s : State) (frame : Frame) : (s.enqueue frame).result =
    .write (writeFrame Config.txqAdmits s.txq frame.header frame.payload).result := rfl
@[simp] theorem State.drain_result (s : State) (k : Nat) : (s.drain k).result = .bytes (s.txq.take k) := rfl
@[simp] theorem State.rxByte_result (s : State) (b : Byte) :
    (s.rxByte b).result = .frame (s.rx.receive s.draws b).2 := rfl

/-- What an operation can do to the state. -/
inductive Effect where
  | cable (c : Cable) (op : CableOp)
  | enqueue (frame : Frame)
  | drain (k : Nat)
  | rxByte (b : Byte)
  | reset

/-- The state after an effect. -/
def Effect.apply : Effect → State → State
  | .cable c op, s => s.onCable c op
  | .enqueue frame, s => s.enqueue frame
  | .drain k, s => s.drain k
  | .rxByte b, s => s.rxByte b
  | .reset, s => s.quiesce.finish .noResult []

/-- An effect on the queue or on everything tells its instruction: frames enter by an instruction that sends them, and only
`RESET` resets. -/
def Effect.Of : Effect → Instr → Prop
  | .enqueue frame, i => sentFrame i = some frame
  | .reset, i => i = .reset
  | _, _ => True

theorem giveByte_effect (op : ByteOp) (c : Cable) (b : Byte) :
    ∃ cop : CableOp, ∀ s : State, s.giveByte op c b = s.onCable c cop := by
  cases op with
  | feed => exact ⟨.feed b, fun s => s.feed_eq_onCable c b⟩
  | append1 => exact ⟨.append1 b, fun s => s.append1_eq_onCable c b⟩

theorem givePacket_effect (op : PacketOp) (p : Packet) :
    ∃ cop : CableOp, ∀ s : State, s.givePacket op p = s.onCable (Packet.cable p) cop := by
  cases op with
  | unpack => exact ⟨.unpack p, fun s => s.unpack_eq_onCable _ p⟩
  | rxPacket => exact ⟨.rxPacket p, fun s => s.rxPacket_eq_onCable p⟩

/-- Every instruction is refused in every state, or has one effect in every state. -/
theorem exec_effect (i : Instr) :
    (∀ s, exec i s = .refused .payloadTooLong) ∨ ∃ e : Effect, e.Of i ∧ ∀ s, exec i s = .next (e.apply s) := by
  obtain ⟨op, c, b, h⟩ | ⟨op, p, h⟩ | ⟨frame, h⟩ | rfl | ⟨c, bytes, rfl⟩ | ⟨c, bytes, rfl⟩ | ⟨c, rfl⟩ | ⟨k, rfl⟩ |
    ⟨b, rfl⟩ := exec_cases i
  · obtain ⟨cop, hcop⟩ := giveByte_effect op c b
    exact .inr ⟨.cable c cop, trivial, fun s => (h s).trans (congrArg _ (hcop s))⟩
  · obtain ⟨cop, hcop⟩ := givePacket_effect op p
    exact .inr ⟨.cable _ cop, trivial, fun s => (h s).trans (congrArg _ (hcop s))⟩
  · by_cases hlen : frame.payload.length ≤ 255
    · refine .inr ⟨.enqueue frame, h, fun s => ?_⟩
      rw [exec_of_sentFrame h]
      obtain ⟨-, hw⟩ | ⟨hlong, -⟩ := s.writeCmd_cases frame.header frame.payload
      · exact hw
      · omega
    · refine .inl fun s => ?_
      rw [exec_of_sentFrame h]
      obtain ⟨hshort, -⟩ | ⟨-, hw⟩ := s.writeCmd_cases frame.header frame.payload
      · omega
      · exact hw
  · exact .inr ⟨.reset, rfl, fun _ => rfl⟩
  · exact .inr ⟨.cable c (.append bytes), trivial, exec_sxAppend c bytes⟩
  · exact .inr ⟨.cable c (.scanAbort bytes), trivial, exec_sxScanAbort c bytes⟩
  · exact .inr ⟨.cable c .clear, trivial, exec_sxReset c⟩
  · exact .inr ⟨.drain k, trivial, fun _ => rfl⟩
  · exact .inr ⟨.rxByte b, trivial, fun _ => rfl⟩

/-- An instruction that answers a next state has an effect, and the next state is the effect's. -/
theorem effect_of_exec_next {i : Instr} {s t : State} (h : exec i s = .next t) :
    ∃ e : Effect, e.Of i ∧ (∀ u, exec i u = .next (e.apply u)) ∧ t = e.apply s := by
  obtain hrefused | ⟨e, hof, he⟩ := exec_effect i
  · simp [hrefused] at h
  · exact ⟨e, hof, he, (Host.Outcome.next.inj ((he s).symm.trans h)).symm⟩

/-- A step leaves the state or has one effect, after the fetch. -/
theorem step_next_cases {s t : State} (h : step s = .next t) :
    t = s ∨ ∃ (e : Effect) (rest : List Request), t = e.apply { s with inbox := rest, draws := s.draws + 1 } := by
  obtain ⟨-, hfetch⟩ | ⟨r, rest, -, hfetch⟩ := s.fetch_spec
  · simp only [step, hfetch] at h
    exact .inl (Host.Outcome.next.inj h).symm
  · cases hdecode : decode r with
    | error why => simp [step, hfetch, hdecode] at h
    | ok i =>
      rw [step_of_decode_ok hfetch hdecode] at h
      obtain ⟨e, -, -, rfl⟩ := effect_of_exec_next h
      exact .inr ⟨e, rest, rfl⟩

end Sys2Proof.Machine

/-! PROOFS. The state family: the events of an operation and the frame of each operation; the counters; the queue. -/

namespace Sys2Proof.Machine

/-! ### The events of an operation (R139, R188) -/

@[simp] theorem CableFrame.complete_events (F : CableFrame) (es : List Event) : (F.complete es).events = es := by
  obtain ⟨-, h⟩ | ⟨-, h⟩ := F.complete_cases es <;> rw [h]

/-- `START` adds at most `StrayData`. -/
theorem CableFrame.first_events (F : CableFrame) (c : Cable) (b : Byte) (es : List Event) :
    (F.first c b es).events = es ∨ isStatus b = false ∧ (F.first c b es).events = es ++ [.strayData] := by
  obtain ⟨-, h⟩ | ⟨-, -, h⟩ | ⟨hb, -, h⟩ := F.first_cases c b es
  · exact .inl (by rw [h, CableFrame.complete_events])
  · exact .inl (by rw [h])
  · exact .inr ⟨hb, by rw [h]⟩

/-- `PC.FEED` emits nothing or one of three events. -/
theorem CableFrame.feed_events (F : CableFrame) (c : Cable) (b : Byte) :
    (F.feed c b).events = [] ∨
    ∃ e ∈ ([.strayData, .packetOverflow, .midPacketStatus] : List Event), (F.feed c b).events = [e] := by
  obtain ⟨-, h⟩ | ⟨-, -, h⟩ | ⟨-, -, ⟨-, -, p, -, h⟩ | ⟨-, hb, h⟩ | ⟨-, h⟩⟩ := F.feed_cases c b
  · obtain he | ⟨-, he⟩ := F.first_events c b []
    · exact .inl (by rw [h, he])
    · exact .inr ⟨.strayData, by simp, by rw [h, he, List.nil_append]⟩
  · exact .inr ⟨.packetOverflow, by simp, by rw [h]⟩
  · exact .inl (by rw [h])
  · obtain he | ⟨hb', -⟩ :=
      CableFrame.first_events { F with filled := 0, inSysex := false } c b [.midPacketStatus]
    · exact .inr ⟨.midPacketStatus, by simp, by rw [h, he]⟩
    · simp [hb] at hb'
  · exact .inl (by rw [h, CableFrame.complete_events])

/-- Events that leave `tx_drop_count`. -/
def NoTxDrop (es : List Event) : Prop := ∀ e ∈ es, e.counter ≠ .txDrop

theorem noTxDrop_nil : NoTxDrop [] := by simp [NoTxDrop]

theorem NoTxDrop.singleton {e : Event} (h : e.counter ≠ .txDrop) : NoTxDrop [e] := by simpa [NoTxDrop] using h

theorem NoTxDrop.append {es fs : List Event} (he : NoTxDrop es) (hf : NoTxDrop fs) : NoTxDrop (es ++ fs) :=
  List.forall_mem_append.mpr ⟨he, hf⟩

theorem CableFrame.feed_noTxDrop (F : CableFrame) (c : Cable) (b : Byte) : NoTxDrop (F.feed c b).events := by
  obtain h | ⟨e, he, h⟩ := F.feed_events c b
  · exact h ▸ noTxDrop_nil
  · rw [h]
    refine .singleton ?_
    clear h
    revert e; decide

section
variable (S : SysexBuffer) (draw : Nat)

theorem SysexBuffer.append1_noTxDrop (b : Byte) : NoTxDrop (S.append1 draw b).events := by
  obtain ⟨-, h⟩ | ⟨-, -, -, h⟩ | ⟨-, -, -, h⟩ | ⟨-, -, -, h⟩ | ⟨-, -, -, h⟩ | ⟨-, -, -, -, -, h⟩ | ⟨-, -, -, -, h⟩ :=
    S.append1_cases draw b <;> rw [h]
  case inr.inl | inr.inr.inr.inr.inl | inr.inr.inr.inr.inr.inl => exact noTxDrop_nil
  all_goals exact .singleton (by decide)

theorem SysexBuffer.append_noTxDrop (bs : List Byte) : NoTxDrop (S.append draw bs).events := by
  induction bs generalizing S with
  | nil => exact noTxDrop_nil
  | cons b bs ih =>
    obtain ⟨-, h⟩ | ⟨-, h⟩ := S.append_cons draw b bs <;> rw [h]
    · exact (S.append1_noTxDrop draw b).append (ih _)
    · exact S.append1_noTxDrop draw b

theorem SysexBuffer.scanAbort_noTxDrop (bs : List Byte) : NoTxDrop (S.scanAbort draw bs).events := by
  obtain ⟨-, h⟩ | ⟨-, h⟩ | ⟨-, -, -, h⟩ | ⟨-, -, -, h⟩ := S.scanAbort_cases draw bs <;> rw [h]
  · exact noTxDrop_nil
  · exact .singleton (by decide)
  · exact noTxDrop_nil
  · exact .singleton (by decide)

theorem SysexBuffer.rxSysex_noTxDrop (u : Unpacked) : NoTxDrop (S.rxSysex draw u).events := by
  obtain ⟨n, -, h⟩ | ⟨-, h⟩ := S.rxSysex_cases draw u <;> rw [h] <;> exact S.append_noTxDrop draw u.bytes

theorem SysexBuffer.rxShort_noTxDrop (u : Unpacked) : NoTxDrop (S.rxShort draw u).events := by
  obtain ⟨-, h⟩ | ⟨-, n, -, h⟩ | ⟨-, -, h⟩ := S.rxShort_cases draw u <;> rw [h]
  · exact noTxDrop_nil
  · exact (S.scanAbort_noTxDrop draw u.bytes).append (.singleton (by decide))
  · exact S.scanAbort_noTxDrop draw u.bytes

theorem SysexBuffer.rxPacket_noTxDrop (p : Packet) : NoTxDrop (S.rxPacket draw p).events := by
  unfold SysexBuffer.rxPacket
  split
  · exact .singleton (by decide)
  · split
    · exact S.rxSysex_noTxDrop draw _
    · exact S.rxShort_noTxDrop draw _

end

theorem unpackEvents_noTxDrop (u : Option Unpacked) : NoTxDrop (unpackEvents u) := by
  cases u with
  | none => exact .singleton (by decide)
  | some u => exact noTxDrop_nil

/-- No operation of a cable drops a frame (R25). -/
theorem State.cableDid_noTxDrop (s : State) (c : Cable) (op : CableOp) : NoTxDrop (s.cableDid c op).events := by
  cases op with
  | feed b => exact CableFrame.feed_noTxDrop _ c b
  | unpack p => exact unpackEvents_noTxDrop _
  | rxPacket p => exact SysexBuffer.rxPacket_noTxDrop _ _ p
  | append1 b => exact SysexBuffer.append1_noTxDrop _ _ b
  | append bs => exact SysexBuffer.append_noTxDrop _ _ bs
  | scanAbort bs => exact SysexBuffer.scanAbort_noTxDrop _ _ bs
  | clear => exact noTxDrop_nil

theorem State.onCable_keeps_txDropCount (s : State) (c : Cable) (op : CableOp) :
    (s.onCable c op).txDropCount = s.txDropCount :=
  countEvents_of_forall_ne (s.cableDid_noTxDrop c op) _

/-! ### The frame of each operation -/

/-- Settles O19: `PC.FEED` is an operation of its cable that keeps the buffer. -/
theorem feedFrame : Obligations.FeedFrame := by
  intro s t c b h
  obtain rfl : s.feed c b = t := Host.Outcome.next.inj h
  rw [State.feed_eq_onCable]
  refine ⟨fun d hd => by rw [State.onCable_cable, if_neg hd], ?_, rfl, rfl, s.onCable_keeps_txDropCount c _, rfl, rfl,
    ?_⟩
  · exact (s.onCable_sx c _).trans (congrArg State.sx (s.setSysex_self c))
  · obtain he | ⟨e, -, he⟩ := (s.cable c).feed_events c b <;> simp [State.cableDid, CableOp.run, he]

/-- The accumulator operations and `PC.RX_PACKET` are operations of their cable, which keep its frame. -/
theorem exec_accumulator {c : Cable} {b : Byte} {bytes : List Byte} {p : Packet} (hp : hiNibble p.b0 = c) {i : Instr}
    (hi : i ∈ ([.sxAppend1 c b, .sxAppend c bytes, .sxScanAbort c bytes, .sxReset c, .pcRxPacket p] : List Instr)) :
    ∃ op : CableOp, (∀ s, exec i s = .next (s.onCable c op)) ∧ ∀ s : State, (s.cableDid c op).now.1 = s.cable c := by
  simp only [List.mem_cons, List.not_mem_nil, or_false] at hi
  obtain rfl | rfl | rfl | rfl | rfl := hi
  · exact ⟨.append1 b, fun s => congrArg Host.Outcome.next (s.append1_eq_onCable c b), fun _ => rfl⟩
  · exact ⟨.append bytes, exec_sxAppend c bytes, fun _ => rfl⟩
  · exact ⟨.scanAbort bytes, exec_sxScanAbort c bytes, fun _ => rfl⟩
  · exact ⟨.clear, exec_sxReset c, fun _ => rfl⟩
  · exact ⟨.rxPacket p, fun s => hp ▸ congrArg Host.Outcome.next (s.rxPacket_eq_onCable p), fun _ => rfl⟩

/-- Settles O33: each of these is an operation of its cable that keeps the frame. -/
theorem accumulatorFrame : Obligations.AccumulatorFrame := by
  intro s t c b bytes p hp i hi h
  obtain ⟨op, hexec, hframe⟩ := exec_accumulator hp hi
  obtain rfl : s.onCable c op = t := Host.Outcome.next.inj ((hexec s).symm.trans h)
  refine ⟨fun d hd => by rw [State.onCable_sysex, if_neg hd], ?_, rfl, rfl, s.onCable_keeps_txDropCount c op, rfl, rfl⟩
  rw [State.onCable_cf, hframe, State.setCable_self]

/-- A frame that is written or dropped leaves `framing_err_count`: its one event is `TxQueueFull` (R173). -/
theorem State.enqueue_framingErrCount (s : State) (frame : Frame) :
    (s.enqueue frame).framingErrCount = s.framingErrCount := by
  refine countEvents_of_forall_ne ?_ _
  obtain ⟨-, h⟩ | ⟨-, h⟩ := writeFrame_cases Config.txqAdmits s.txq frame.header frame.payload <;> rw [h]
  · simp
  · simp [Event.counter]

theorem enqueue_of_writeCmd_next {s t : State} {header : Byte} {payload : List Byte}
    (h : exec (.cfWriteCmd header payload) s = .next t) : t = s.enqueue ⟨header, payload⟩ := by
  obtain ⟨-, hw⟩ | ⟨-, hw⟩ := s.writeCmd_cases header payload
  · exact (Host.Outcome.next.inj (hw.symm.trans h)).symm
  · exact nomatch hw.symm.trans h

/-- Settles O48: the three operations write the queue or the receive framer, and `tx_drop_count` by `TxQueueFull` only. -/
theorem framerFrame : Obligations.FramerFrame := by
  intro s t header b payload k
  have hdrain (h : exec (.cfDrain k) s = .next t) : t = s.drain k := (Host.Outcome.next.inj h).symm
  have hrx (h : exec (.cfRxByte b) s = .next t) : t = s.rxByte b := (Host.Outcome.next.inj h).symm
  refine ⟨fun i hi h => ?_, fun h => ?_, fun h => ?_, fun h => ?_⟩
  · simp only [List.mem_cons, List.not_mem_nil, or_false] at hi
    obtain rfl | rfl | rfl := hi
    · obtain rfl := enqueue_of_writeCmd_next h
      exact ⟨rfl, rfl, s.enqueue_framingErrCount _, rfl, rfl⟩
    · obtain rfl := hdrain h
      exact ⟨rfl, rfl, rfl, rfl, rfl⟩
    · obtain rfl := hrx h
      exact ⟨rfl, rfl, rfl, rfl, rfl⟩
  · obtain rfl := enqueue_of_writeCmd_next h
    rfl
  · obtain rfl := hdrain h
    exact ⟨rfl, rfl, rfl⟩
  · obtain rfl := hrx h
    exact ⟨rfl, rfl, rfl⟩

/-! ### The counters count the events (R24, R25) -/

/-- Every effect but `RESET` changes the two counters by its events only. -/
theorem Effect.apply_counters {e : Effect} (he : e ≠ .reset) (s : State) :
    (e.apply s).framingErrCount = countEvents .framingErr (e.apply s).events s.framingErrCount ∧
    (e.apply s).txDropCount = countEvents .txDrop (e.apply s).events s.txDropCount := by
  cases e with
  | reset => exact absurd rfl he
  | cable | enqueue | drain | rxByte => exact ⟨rfl, rfl⟩

/-- The event kinds of `framing_err_count` (R24, R188). -/
theorem Event.counter_eq_framingErr (e : Event) :
    e.counter = .framingErr ↔ e ∈ ([.strayData, .midPacketStatus, .packetOverflow, .reservedCin, .sysexBadStart,
      .sysexAbortedByMessage] : List Event) := by
  cases e <;> decide

/-- The one event kind of `tx_drop_count` (R25, R188). -/
theorem Event.counter_eq_txDrop (e : Event) : e.counter = .txDrop ↔ e = .txQueueFull := by
  cases e <;> decide

/-- Settles O54: counting events is incrementing once for each event of the counter's kinds. -/
theorem countersCountEvents : Obligations.CountersCountEvents := by
  intro i s t hi h
  obtain ⟨e, hof, -, rfl⟩ := effect_of_exec_next h
  have he : e ≠ .reset := by rintro rfl; exact hi hof
  obtain ⟨hframing, hdrop⟩ := Effect.apply_counters he s
  constructor
  · simpa only [countEvents_eq_iterate, Event.counter_eq_framingErr] using hframing
  · simpa only [countEvents_eq_iterate, Event.counter_eq_txDrop] using hdrop

/-! ### The queue (R28, R46) -/

/-- The operations of a cable return no written frame and no drained bytes. -/
theorem State.cableDid_result (s : State) (c : Cable) (op : CableOp) :
    (∀ w, (s.cableDid c op).result ≠ .write w) ∧ ∀ bs, (s.cableDid c op).result ≠ .bytes bs := by
  cases op with
  | feed | unpack | rxPacket | append1 | append | scanAbort | clear => exact ⟨nofun, nofun⟩

theorem acceptedFrames_cons (i : Instr) (o : Seen) (is : List Instr) (os : List Seen) :
    acceptedFrames (i :: is) (o :: os) = acceptedFrames [i] [o] ++ acceptedFrames is os := by
  simp only [acceptedFrames]
  split <;> rfl

theorem acceptedFrames_of_not_write {i : Instr} {o : Seen} (h : ∀ w, o.1 ≠ .write w) : acceptedFrames [i] [o] = [] := by
  simp only [acceptedFrames]
  split
  · next heq => exact absurd heq (h _)
  · rfl

theorem acceptedFrames_of_ok {i : Instr} {frame : Frame} (h : sentFrame i = some frame) (es : List Event) :
    acceptedFrames [i] [(.write .ok, es)] = [frame] := by
  simp [acceptedFrames, h]

theorem acceptedFrames_of_dropped (i : Instr) (es : List Event) : acceptedFrames [i] [(.write .dropped, es)] = [] := by
  simp [acceptedFrames]

theorem drainedOf_cons (o : Seen) (os : List Seen) : drainedOf (o :: os) = drainedOf [o] ++ drainedOf os := by
  simp [drainedOf]

theorem drainedOf_of_not_bytes {o : Seen} (h : ∀ bs, o.1 ≠ .bytes bs) : drainedOf [o] = [] := by
  obtain ⟨r, es⟩ := o
  cases r with
  | bytes bs => exact absurd rfl (h bs)
  | noResult | packet | unpacked | message | accum | write | frame => rfl

theorem wireBytes_append (fs gs : List Frame) : wireBytes (fs ++ gs) = wireBytes fs ++ wireBytes gs :=
  List.flatMap_append

/-- One operation: what it accepts enters at the queue's end, what it drains leaves at its head. -/
theorem Effect.apply_txq {e : Effect} {i : Instr} (hof : e.Of i) (he : e ≠ .reset) (s : State) :
    s.txq ++ wireBytes (acceptedFrames [i] [((e.apply s).result, (e.apply s).events)]) =
      drainedOf [((e.apply s).result, (e.apply s).events)] ++ (e.apply s).txq := by
  cases e with
  | cable c op =>
    obtain ⟨hwrite, hbytes⟩ := s.cableDid_result c op
    rw [acceptedFrames_of_not_write hwrite, drainedOf_of_not_bytes hbytes]
    exact List.append_nil _
  | enqueue frame =>
    rw [drainedOf_of_not_bytes (by simp [Effect.apply]), List.nil_append]
    obtain ⟨-, h⟩ | ⟨-, h⟩ := writeFrame_cases Config.txqAdmits s.txq frame.header frame.payload <;>
      simp only [Effect.apply, State.enqueue, h, State.finish_result, State.finish_events, State.finish_txq]
    · simp [acceptedFrames_of_ok hof, wireBytes]
    · simp [acceptedFrames_of_dropped, wireBytes]
  | drain k =>
    rw [acceptedFrames_of_not_write (by simp [Effect.apply])]
    simp [Effect.apply, State.drain, drainedOf, wireBytes]
  | rxByte b =>
    rw [acceptedFrames_of_not_write (by simp [Effect.apply]), drainedOf_of_not_bytes (by simp [Effect.apply])]
    exact List.append_nil _
  | reset => exact absurd rfl he

/-- A run that does not stop: its first instruction answers, and the rest runs from there. -/
theorem runOps_cons {i : Instr} {is : List Instr} {s u : State} {seen : List Seen}
    (h : runOps (i :: is) s = some (seen, u)) :
    ∃ t rest, exec i s = .next t ∧ runOps is t = some (rest, u) ∧ seen = (t.result, t.events) :: rest := by
  unfold runOps at h
  split at h
  · next t ht =>
    split at h
    · next rest u' hrest =>
      obtain ⟨rfl, rfl⟩ := Prod.mk.inj (Option.some.inj h)
      exact ⟨t, rest, ht, hrest, rfl⟩
    · simp at h
  · simp at h
  · simp at h

/-- Settles O50, by induction on the run: each operation keeps the law of one operation. -/
theorem queueIsFirstInFirstOut : Obligations.QueueIsFirstInFirstOut := by
  intro instrs
  induction instrs with
  | nil =>
    intro s t seen _ hrun
    obtain ⟨rfl, rfl⟩ := Prod.mk.inj (Option.some.inj hrun)
    simp [acceptedFrames, wireBytes, drainedOf]
  | cons i is ih =>
    intro s u seen hreset hrun
    obtain ⟨t, rest, hexec, hrest, rfl⟩ := runOps_cons hrun
    obtain ⟨e, hof, -, rfl⟩ := effect_of_exec_next hexec
    have he : e ≠ .reset := by
      rintro rfl
      exact hreset (List.mem_cons.mpr (.inl (Eq.symm hof)))
    rw [acceptedFrames_cons, drainedOf_cons, wireBytes_append, ← List.append_assoc, Effect.apply_txq hof he s,
      List.append_assoc, List.append_assoc, ih _ _ _ (fun h => hreset (List.mem_cons_of_mem _ h)) hrest]

end Sys2Proof.Machine

/-! PROOFS. The state family: what every step keeps of the byte arrays, the frames, the buffers, the receive framer and the
queue, and that it holds after reset. -/

namespace Sys2Proof.Machine

/-! ### Properties of one part of the state that every effect keeps

A property of a buffer that `SX.APPEND1` and the clearing of a buffer keep is kept by every operation. -/

section
variable {P : SysexBuffer → Prop} {draw : Nat}

theorem SysexBuffer.append_keeps (happend : ∀ S b, P S → P (S.append1 draw b).now) (bs : List Byte) {S : SysexBuffer}
    (hS : P S) : P (S.append draw bs).now := by
  induction bs generalizing S with
  | nil => exact hS
  | cons b bs ih =>
    obtain ⟨-, h⟩ | ⟨-, h⟩ := S.append_cons draw b bs <;> rw [h]
    · exact ih (happend S b hS)
    · exact happend S b hS

theorem SysexBuffer.scanAbort_keeps (happend : ∀ S b, P S → P (S.append1 draw b).now) (hclear : ∀ S, P S → P S.clear)
    (bs : List Byte) {S : SysexBuffer} (hS : P S) : P (S.scanAbort draw bs).now := by
  unfold SysexBuffer.scanAbort
  split_ifs
  · exact hS
  · exact hS
  · exact happend S 0xF7 hS
  · exact hclear S hS

theorem SysexBuffer.rxPacket_keeps (happend : ∀ S b, P S → P (S.append1 draw b).now) (hclear : ∀ S, P S → P S.clear)
    (p : Packet) {S : SysexBuffer} (hS : P S) : P (S.rxPacket draw p).now := by
  unfold SysexBuffer.rxPacket
  split
  · exact hS
  next u _ =>
    split
    · have hnow := append_keeps happend u.bytes hS
      obtain ⟨n, -, h⟩ | ⟨-, h⟩ := S.rxSysex_cases draw u <;> rw [h]
      · exact hclear _ hnow
      · exact hnow
    · have hnow := scanAbort_keeps happend hclear u.bytes hS
      obtain ⟨-, h⟩ | ⟨-, n, -, h⟩ | ⟨-, -, h⟩ := S.rxShort_cases draw u <;> rw [h]
      · exact hS
      · exact hclear _ hnow
      · exact hnow

end

/-- A property of the buffers that `SX.APPEND1` and clearing keep is kept by every effect. -/
theorem Effect.apply_keeps_sysex {P : SysexBuffer → Prop} (happend : ∀ S draw b, P S → P (S.append1 draw b).now)
    (hclear : ∀ S, P S → P S.clear) (e : Effect) {s : State} (hs : ∀ c, P (s.sysex c)) (c : Cable) :
    P ((e.apply s).sysex c) := by
  cases e with
  | cable d op =>
    rw [Effect.apply, State.onCable_sysex]
    split
    · cases op with
      | feed | unpack => exact hs d
      | rxPacket p => exact SysexBuffer.rxPacket_keeps (happend · s.draws) hclear p (hs d)
      | append1 b => exact happend _ s.draws b (hs d)
      | append bs => exact SysexBuffer.append_keeps (happend · s.draws) bs (hs d)
      | scanAbort bs => exact SysexBuffer.scanAbort_keeps (happend · s.draws) hclear bs (hs d)
      | clear => exact hclear _ (hs d)
    · exact hs c
  | enqueue | drain | rxByte => exact hs c
  | reset => rw [Effect.apply, State.finish_sysex, State.quiesce_sysex]; exact hclear _ (hs c)

/-- A property of a cable's frame that `PC.FEED` keeps and the frame after reset has is kept by every effect. -/
theorem Effect.apply_keeps_cable {P : CableFrame → Cable → Prop} (hfeed : ∀ F c b, P F c → P (F.feed c b).now c)
    (hreset : ∀ c, P CableFrame.reset c) (e : Effect) {s : State} (hs : ∀ c, P (s.cable c) c) (c : Cable) :
    P ((e.apply s).cable c) c := by
  cases e with
  | cable d op =>
    rw [Effect.apply, State.onCable_cable]
    split
    · next hcd =>
      subst hcd
      cases op with
      | feed b => exact hfeed _ c b (hs c)
      | unpack | rxPacket | append1 | append | scanAbort | clear => exact hs c
    · exact hs c
  | enqueue | drain | rxByte => exact hs c
  | reset => rw [Effect.apply, State.finish_cable, State.quiesce_cable]; exact hreset c

/-- A property of the receive framer that `CF.RX_BYTE` and clearing keep is kept by every effect. -/
theorem Effect.apply_keeps_rx {P : RxFramer → Prop} (hreceive : ∀ rx draw b, P rx → P (rx.receive draw b).1)
    (hclear : ∀ rx, P rx → P rx.clear) (e : Effect) {s : State} (hs : P s.rx) : P (e.apply s).rx := by
  cases e with
  | cable | enqueue | drain => exact hs
  | rxByte b => exact hreceive _ _ b hs
  | reset => exact hclear _ hs

/-! ### The canonical form of the byte arrays -/

theorem SysexBuffer.append1_wf (S : SysexBuffer) (draw : Nat) (b : Byte) (hS : Memory.wf 2048 S.bytes = true) :
    Memory.wf 2048 (S.append1 draw b).now.bytes = true := by
  obtain ⟨-, h⟩ | ⟨-, -, -, h⟩ | ⟨-, -, -, h⟩ | ⟨-, -, -, h⟩ | ⟨-, -, -, h⟩ | ⟨-, -, -, -, hlt, h⟩ | ⟨-, -, -, -, h⟩ :=
    S.append1_cases draw b <;> rw [h]
  · exact hS
  · exact Memory.write_wf _ (by decide) hS
  · exact hS
  · exact Memory.write_wf _ (by decide) hS
  · exact Memory.write_wf _ (S.eoxSlot_lt draw) hS
  · exact Memory.write_wf _ (by omega) hS
  · exact hS

theorem RxFramer.storeByte_wf (rx : RxFramer) (draw : Nat) (b : Byte) (hrx : Memory.wf 255 rx.payload = true) :
    Memory.wf 255 (rx.storeByte draw b).payload = true := by
  obtain ⟨hlt, h⟩ | ⟨-, h⟩ := rx.storeByte_cases draw b <;> rw [h]
  · exact Memory.write_wf b hlt hrx
  · exact hrx

theorem RxFramer.receive_wf (rx : RxFramer) (draw : Nat) (b : Byte) (hrx : Memory.wf 255 rx.payload = true) :
    Memory.wf 255 (rx.receive draw b).1.payload = true := by
  obtain ⟨-, h⟩ | ⟨-, -, h⟩ | ⟨-, -, h⟩ | ⟨-, -, h⟩ | ⟨-, -, h⟩ := rx.receive_cases draw b <;> rw [h]
  case inr.inr.inr.inl | inr.inr.inr.inr => exact rx.storeByte_wf draw b hrx
  all_goals exact hrx

theorem Effect.apply_memoryWf (e : Effect) {s : State} (hs : s.memoryWf) : (e.apply s).memoryWf :=
  ⟨e.apply_keeps_sysex (P := fun S => Memory.wf 2048 S.bytes = true) SysexBuffer.append1_wf (fun _ h => h) hs.1,
    e.apply_keeps_rx (P := fun rx => Memory.wf 255 rx.payload = true) RxFramer.receive_wf (fun _ h => h) hs.2⟩

/-- Settles O56: every effect keeps the form, and the fetch leaves the arrays. -/
theorem stepKeepsMemoryForm : Obligations.StepKeepsMemoryForm := by
  intro s t hs h
  obtain rfl | ⟨e, rest, rfl⟩ := step_next_cases h
  · exact hs
  · exact e.apply_memoryWf hs

/-! ### The frame of a cable (R17) -/

theorem CableFrame.inv_of_empty {F : CableFrame} (h : F.filled = 0) (c : Cable) : F.Inv c :=
  ⟨by simp [h], fun hne => absurd h hne⟩

/-- What R17 asks of the CIN and the expected size of a packet, given the open-SysEx flag. -/
abbrev ShapeOk (cin : Nibble) (size : BitVec 2) (inSysex : Bool) : Prop :=
  (size = 2 ∨ size = 3) ∧ cin ∈ ([0x2, 0x3, 0x4, 0x8, 0x9, 0xA, 0xB, 0xC, 0xD, 0xE] : List Nibble) ∧
  nbytes cin = some size.toNat ∧ (cin = 0x4 ↔ inSysex = true)

/-- A status byte starts a one-byte message or a packet of a shape R17 asks for (R75 to R91, R131). -/
theorem startShape_ok (b : Byte) (h : isStatus b = true) :
    (startShape b).2 = 1 ∨ ShapeOk (startShape b).1 (startShape b).2 (inSysexAfterStart b) := by
  revert b; decide +kernel

@[simp] theorem CableFrame.cable_start (F : CableFrame) (c : Cable) (b : Byte) (cin : Nibble) (size : BitVec 2) :
    Packet.cable (F.start c b cin size).packet = c := hiNibble_packetHead c cin

@[simp] theorem CableFrame.cin_start (F : CableFrame) (c : Cable) (b : Byte) (cin : Nibble) (size : BitVec 2) :
    Packet.cin (F.start c b cin size).packet = cin := loNibble_packetHead c cin

/-- A packet just begun meets R17. -/
theorem CableFrame.start_inv (F : CableFrame) (c : Cable) (b : Byte) {cin : Nibble} {size : BitVec 2}
    (h : ShapeOk cin size F.inSysex) : (F.start c b cin size).Inv c := by
  obtain ⟨hsize, hcin, hn, hsysex⟩ := h
  have hlt : (1 : BitVec 2) < size := by obtain rfl | rfl := hsize <;> decide
  have hfilled : (F.start c b cin size).filled ≠ 3 := show (1 : BitVec 2) ≠ 3 by decide
  exact ⟨hfilled, fun _ => ⟨hsize, hlt, F.cable_start c b cin size, by rwa [F.cin_start], by rwa [F.cin_start],
    fun _ => rfl, rfl, by rwa [F.cin_start]⟩⟩

/-- `FINISH` needs R17 only of a packet that lacks bytes. -/
theorem CableFrame.complete_inv {F : CableFrame} {c : Cable} (es : List Event)
    (h : F.filled ≠ F.expectedSize → F.Inv c) : (F.complete es).now.Inv c := by
  obtain ⟨-, hc⟩ | ⟨hne, hc⟩ := F.complete_cases es <;> rw [hc]
  · exact CableFrame.inv_of_empty rfl c
  · exact h hne

theorem CableFrame.first_inv {F : CableFrame} (hF : F.filled = 0) (c : Cable) (b : Byte) (es : List Event) :
    (F.first c b es).now.Inv c := by
  obtain ⟨hb, h⟩ | ⟨-, hs, h⟩ | ⟨-, -, h⟩ := F.first_cases c b es <;> rw [h]
  · refine CableFrame.complete_inv es fun hne => ?_
    obtain hone | hshape := startShape_ok b hb
    · exact absurd hone.symm hne
    · exact CableFrame.start_inv _ c b hshape
  · exact F.start_inv c b ⟨.inr rfl, by simp, rfl, by simp [hs]⟩
  · exact CableFrame.inv_of_empty hF c

/-- A data byte stored into a packet that still lacks bytes after it: it was the second of three (R132). -/
theorem CableFrame.store_inv {F : CableFrame} {c : Cable} (hF : F.Inv c) (hfilled : F.filled = 1 ∨ F.filled = 2)
    (b : Byte) (hne : F.filled + 1 ≠ F.expectedSize) :
    CableFrame.Inv { F with packet := Packet.store F.packet F.filled b, filled := F.filled + 1 } c := by
  have hnonempty : F.filled ≠ 0 := by obtain h | h := hfilled <;> rw [h] <;> decide
  obtain ⟨-, hF⟩ := hF
  obtain ⟨hsize, hlt, hcable, hcin, hn, -, hb3, hsysex⟩ := hF hnonempty
  have hsecond : F.filled = 1 ∧ F.expectedSize = 3 := by
    clear * - hfilled hsize hlt hne
    revert hfilled hsize hlt hne
    generalize F.filled = x
    generalize F.expectedSize = y
    revert x y
    decide
  obtain ⟨packet, filled, expectedSize, inSysex⟩ := F
  obtain ⟨rfl, rfl⟩ := hsecond
  have hne3 : (1 + 1 : BitVec 2) ≠ 3 := by decide
  have hne1 : (1 + 1 : BitVec 2) ≠ 1 := by decide
  have hlt3 : (1 + 1 : BitVec 2) < 3 := by decide
  exact ⟨hne3, fun _ => ⟨hsize, hlt3, hcable, hcin, hn, fun h => absurd h hne1, hb3, hsysex⟩⟩

theorem CableFrame.feed_inv (F : CableFrame) (c : Cable) (b : Byte) (hF : F.Inv c) : (F.feed c b).now.Inv c := by
  obtain ⟨h0, h⟩ | ⟨-, -, h⟩ | ⟨hfilled, -, ⟨-, -, p, -, h⟩ | ⟨-, -, h⟩ | ⟨-, h⟩⟩ := F.feed_cases c b <;> rw [h]
  · exact CableFrame.first_inv h0 c b []
  · exact CableFrame.inv_of_empty rfl c
  · exact CableFrame.inv_of_empty rfl c
  · exact CableFrame.first_inv rfl c b _
  · exact CableFrame.complete_inv [] (CableFrame.store_inv hF hfilled b)

/-! ### The accumulator of a cable (R22) -/

theorem SysexBuffer.isComplete_iff (S : SysexBuffer) :
    S.isComplete = true ↔ 0 < S.length.val ∧ Memory.read S.bytes (S.length.val - 1) = 0xF7 := by
  rw [SysexBuffer.isComplete, Bool.and_eq_true, decide_eq_true_iff, decide_eq_true_iff, SysexBuffer.lastByte]

section
variable {S : SysexBuffer} (hwf : Memory.wf 2048 S.bytes = true)
include hwf

theorem SysexBuffer.read_put (i : Nat) (b : Byte) (k : Nat) :
    Memory.read (S.put i b).bytes k = if k = i then b else Memory.read S.bytes k :=
  Memory.read_write hwf i b k

/-- The message is complete after a byte is stored exactly when the byte is an EOX (R23). -/
theorem SysexBuffer.isComplete_put {i : Nat} (hi : i < 2048) (b : Byte) :
    (S.put i b).isComplete = true ↔ b = 0xF7 := by
  rw [SysexBuffer.isComplete_iff, SysexBuffer.put_length S b hi, SysexBuffer.read_put hwf]
  simp

/-- A message begun anew meets R22 (R149, R150). -/
theorem SysexBuffer.put_start_inv (hdropped : S.droppedCount = 0) : (S.put 0 0xF0).Inv := by
  have hlen : (S.put 0 0xF0).length.val = 1 := S.put_length 0xF0 (by decide)
  have hread := SysexBuffer.read_put hwf 0 0xF0
  refine ⟨fun _ => by omega, fun _ => by rw [hread, if_pos rfl], fun i hi => ?_, fun h => by omega,
    fun h => absurd hdropped h, fun i hi _ => by omega⟩
  obtain rfl : i = 0 := by omega
  rw [hread, if_pos rfl]
  exact fun h => absurd h (by decide)

/-- A byte that is not 0xF0 stored at the end of a message in progress keeps R22; index 2047 is for the EOX (R151,
R152). -/
theorem SysexBuffer.put_next_inv (hinv : S.Inv) (hprogress : S.InProgress) {b : Byte} (hb : b ≠ 0xF0)
    (hroom : b ≠ 0xF7 → S.length.val < 2047) : (S.put S.length.val b).Inv := by
  obtain ⟨hmax, hfirst, heox, -, hdropped, hstart⟩ := hinv
  obtain ⟨hpos, hopen⟩ := hprogress
  have hle : S.length.val ≤ 2047 := hmax hopen
  have hlen : (S.put S.length.val b).length.val = S.length.val + 1 := S.put_length b (by omega)
  have hread := SysexBuffer.read_put hwf S.length.val b
  have hnoEox : ∀ i < S.length.val, Memory.read S.bytes i ≠ 0xF7 := fun i hi h => by
    have hlast : S.length.val - 1 = i := by have := heox i hi h; omega
    have hcomplete := S.isComplete_iff.mpr ⟨hpos, hlast ▸ h⟩
    simp [hopen] at hcomplete
  refine ⟨fun h => ?_, fun _ => ?_, fun i hi h => ?_, fun h => ?_, fun h => ?_, fun i hi h => ?_⟩
  · have hb7 : b ≠ 0xF7 := fun e => by
      rw [(SysexBuffer.isComplete_put hwf (i := S.length.val) (by omega) b).mpr e] at h
      exact nomatch h
    have := hroom hb7
    omega
  · rw [hread, if_neg (by omega)]
    exact hfirst hpos
  · rw [hread] at h
    by_cases hi' : i = S.length.val
    · omega
    · rw [if_neg hi'] at h
      exact absurd h (hnoEox i (by omega))
  · rw [hread, if_pos (by omega)]
    by_contra hb7
    have := hroom hb7
    omega
  · have := hdropped h
    omega
  · rw [hread] at h
    by_cases hi' : i = S.length.val
    · rw [if_pos hi'] at h
      exact absurd h hb
    · rw [if_neg hi'] at h
      exact hstart i (by omega) h

end

/-- An idle buffer has dropped nothing (R22 (e)). -/
theorem SysexBuffer.Inv.droppedCount_of_idle {S : SysexBuffer} (h : S.Inv) (h0 : S.length.val = 0) :
    S.droppedCount = 0 := by
  obtain ⟨-, -, -, -, hdropped, -⟩ := h
  by_contra hne
  have := hdropped hne
  omega

theorem SysexBuffer.append1_inv (S : SysexBuffer) (draw : Nat) (b : Byte) (hwf : Memory.wf 2048 S.bytes = true)
    (hS : S.Inv) : (S.append1 draw b).now.Inv := by
  obtain ⟨-, h⟩ | ⟨-, h0, -, h⟩ | ⟨-, -, -, h⟩ | ⟨-, -, -, h⟩ | ⟨hopen, hpos, -, h⟩ |
    ⟨hopen, hpos, hf0, hf7, hlt, h⟩ | ⟨-, hfull, -, -, h⟩ := S.append1_cases draw b <;> rw [h]
  · exact hS
  · exact SysexBuffer.put_start_inv hwf (hS.droppedCount_of_idle h0)
  · exact hS
  · exact SysexBuffer.put_start_inv (S := { S with droppedCount := 0 }) hwf rfl
  · rw [S.eoxSlot_eq draw (hS.1 hopen)]
    exact SysexBuffer.put_next_inv hwf hS ⟨hpos, hopen⟩ (by decide) (absurd rfl)
  · exact SysexBuffer.put_next_inv hwf hS ⟨hpos, hopen⟩ hf0 fun _ => hlt
  · obtain ⟨hmax, hfirst, heox, hlast, -, hstart⟩ := hS
    exact ⟨hmax, hfirst, heox, hlast, fun _ => hfull, hstart⟩

theorem SysexBuffer.clear_inv (S : SysexBuffer) : S.clear.Inv := by
  refine ⟨fun _ => Nat.zero_le _, fun h => ?_, fun i hi => ?_, fun h => ?_, fun h => absurd rfl h, fun i hi => ?_⟩
  all_goals simp at *

/-! ### The receive framer (R29, R179) and the queue (R28) -/

/-- A payload byte that is stored counts one more, up to the length (R179). -/
theorem RxFramer.storeByte_count_le {rx : RxFramer} (h : rx.count < rx.len) (draw : Nat) (b : Byte) :
    (rx.storeByte draw b).count ≤ (rx.storeByte draw b).len := by
  obtain ⟨-, hs⟩ | ⟨hfull, -⟩ := rx.storeByte_cases draw b
  · rw [hs]
    bv_omega
  · bv_omega

theorem RxFramer.receive_inv (rx : RxFramer) (draw : Nat) (b : Byte) (hrx : rx.Inv) : (rx.receive draw b).1.Inv := by
  obtain ⟨hle, hlt⟩ := hrx
  obtain ⟨-, h⟩ | ⟨-, -, h⟩ | ⟨-, hb, h⟩ | ⟨hp, -, h⟩ | ⟨hp, hne, h⟩ := rx.receive_cases draw b <;> rw [h]
  · exact ⟨hle, nofun⟩
  · exact ⟨BitVec.le_def.mpr (Nat.zero_le _), nofun⟩
  · exact ⟨BitVec.le_def.mpr (Nat.zero_le _), fun _ => by bv_omega⟩
  all_goals have hcount := RxFramer.storeByte_count_le (hlt hp) draw b
  · exact ⟨hcount, nofun⟩
  · rw [← rx.storeByte_len draw b] at hne
    exact ⟨hcount, fun _ => by bv_omega⟩

theorem RxFramer.clear_inv (rx : RxFramer) : rx.clear.Inv := ⟨BitVec.le_refl _, nofun⟩

theorem Effect.apply_txq_length (e : Effect) {s : State} (hs : s.txq.length ≤ Config.txqCapacity) :
    (e.apply s).txq.length ≤ Config.txqCapacity := by
  cases e with
  | cable | rxByte => exact hs
  | enqueue frame =>
    obtain ⟨hadmits, h⟩ | ⟨-, h⟩ := writeFrame_cases Config.txqAdmits s.txq frame.header frame.payload <;>
      rw [Effect.apply, State.enqueue, State.finish_txq, h]
    · simpa using (Config.txqAdmits_iff _).mp hadmits
    · exact hs
  | drain k =>
    calc (s.txq.drop k).length ≤ s.txq.length := by simp
      _ ≤ Config.txqCapacity := hs
  | reset => exact Nat.zero_le _

/-! ### All invariants together -/

theorem Effect.apply_inv (e : Effect) {s : State} (hwf : s.memoryWf) (hs : s.Inv) : (e.apply s).Inv := by
  obtain ⟨hcable, hsysex, hrx, htxq⟩ := hs
  have hbuffer := e.apply_keeps_sysex (P := fun S => Memory.wf 2048 S.bytes = true ∧ S.Inv)
    (fun S draw b h => ⟨S.append1_wf draw b h.1, S.append1_inv draw b h.1 h.2⟩)
    (fun S h => ⟨h.1, S.clear_inv⟩) fun c => ⟨hwf.1 c, hsysex c⟩
  exact ⟨e.apply_keeps_cable CableFrame.feed_inv (fun c => CableFrame.inv_of_empty rfl c) hcable,
    fun c => (hbuffer c).2, e.apply_keeps_rx RxFramer.receive_inv (fun rx _ => rx.clear_inv) hrx,
    e.apply_txq_length htxq⟩

/-- Settles O57: every effect keeps the invariants of every part, and the fetch leaves the parts. -/
theorem stepKeepsInvariants : Obligations.StepKeepsInvariants := by
  intro s t hwf hs h
  obtain rfl | ⟨e, rest, rfl⟩ := step_next_cases h
  · exact hs
  · exact e.apply_inv hwf hs

/-! ### The state after reset (R36) -/

/-- Settles O9, cable by cable. -/
theorem resetState : Obligations.ResetState :=
  ⟨fun c => State.reset_cable c, fun c => by rw [State.reset_sysex]; exact ⟨rfl, rfl⟩, rfl, rfl, rfl, rfl, rfl, rfl, rfl⟩

/-- Settles O58: nothing is listed, no packet is begun, and the buffers, the framer and the queue are as cleared. -/
theorem resetHasInvariants : Obligations.ResetHasInvariants := by
  refine ⟨⟨fun c => ?_, rfl⟩, fun c => ?_, fun c => ?_, RxFramer.reset.clear_inv, Nat.zero_le _⟩
  · rw [State.reset_sysex]; rfl
  · rw [State.reset_cable]; exact CableFrame.inv_of_empty rfl c
  · rw [State.reset_sysex]; exact SysexBuffer.reset.clear_inv

end Sys2Proof.Machine

/-! PROOFS. The state family: nothing depends on state that has no meaning, and operations on different cables commute. -/

namespace Sys2Proof.Machine

/-! ### State that has no meaning (R13, R15, R19, R29, U6)

`Did.Agree` says that an operation did the same, up to a relation on the component it works on; each operation that starts
from components alike does the same and leaves them alike. -/

/-- Two outcomes with the same result and events, and with components that are related. -/
def Did.Agree {σ ρ : Type} (R : σ → σ → Prop) (d e : Did σ ρ) : Prop :=
  R d.now e.now ∧ d.result = e.result ∧ d.events = e.events

/-! #### The frame of a cable -/

/-- Frames alike in what has a meaning are equal once a packet is begun. -/
theorem CableFrame.SameMeaning.eq_of_begun {F G : CableFrame} (h : F.SameMeaning G) (hF : F.filled ≠ 0) : F = G := by
  obtain ⟨hfilled, hsysex, hpacket⟩ := h
  obtain ⟨hp, hs⟩ := hpacket hF
  obtain ⟨_, _, _, _⟩ := F
  obtain ⟨_, _, _, _⟩ := G
  simp_all

theorem CableFrame.sameMeaning_refl (F : CableFrame) : F.SameMeaning F := ⟨rfl, rfl, fun _ => ⟨rfl, rfl⟩⟩

/-- `BEGIN` writes every field but the open-SysEx flag. -/
theorem CableFrame.start_eq {F G : CableFrame} (h : F.inSysex = G.inSysex) (c : Cable) (b : Byte) (cin : Nibble)
    (size : BitVec 2) : F.start c b cin size = G.start c b cin size := by
  simp [CableFrame.start, h]

theorem CableFrame.feed_agree {F G : CableFrame} (h : F.SameMeaning G) (c : Cable) (b : Byte) :
    Did.Agree CableFrame.SameMeaning (F.feed c b) (G.feed c b) := by
  by_cases hF : F.filled = 0
  · have hG : G.filled = 0 := h.1 ▸ hF
    have hsysex : F.inSysex = G.inSysex := h.2.1
    rw [CableFrame.feed, CableFrame.feed, if_pos hF, if_pos hG]
    simp only [CableFrame.first, ← hsysex]
    split_ifs
    · rw [CableFrame.start_eq (G := { G with inSysex := inSysexAfterStart b }) rfl]
      exact ⟨CableFrame.sameMeaning_refl _, rfl, rfl⟩
    · rw [CableFrame.start_eq hsysex]
      exact ⟨CableFrame.sameMeaning_refl _, rfl, rfl⟩
    · exact ⟨h, rfl, rfl⟩
  · rw [h.eq_of_begun hF]
    exact ⟨CableFrame.sameMeaning_refl _, rfl, rfl⟩

/-! #### The accumulator of a cable -/

/-- A closing EOX lands at the end of what has a meaning or, where no index is left, inside it. -/
theorem SysexBuffer.eoxSlot_le (S : SysexBuffer) (draw : Nat) : S.eoxSlot draw ≤ S.length.val := by
  by_cases h : S.length.val ≤ 2047
  · exact (S.eoxSlot_eq draw h).le
  · have := S.eoxSlot_lt draw
    omega

/-- Buffers in canonical form that agree on what has a meaning. -/
structure SysexBuffer.Alike (S T : SysexBuffer) : Prop where
  same : S.SameMeaning T
  left : Memory.wf 2048 S.bytes = true
  right : Memory.wf 2048 T.bytes = true

section
variable {S T : SysexBuffer} (h : S.Alike T)
include h

theorem SysexBuffer.Alike.length_eq : S.length.val = T.length.val := congrArg Fin.val h.same.1

theorem SysexBuffer.Alike.droppedCount_eq : S.droppedCount = T.droppedCount := h.same.2.1

theorem SysexBuffer.Alike.read_eq {i : Nat} (hi : i < S.length.val) :
    Memory.read S.bytes i = Memory.read T.bytes i := h.same.2.2 i hi

theorem SysexBuffer.Alike.isComplete_eq : S.isComplete = T.isComplete := by
  rw [Bool.eq_iff_iff, S.isComplete_iff, T.isComplete_iff, ← h.length_eq]
  exact and_congr_right fun hpos => by rw [h.read_eq (by omega)]

theorem SysexBuffer.Alike.message_eq : S.message = T.message := by
  rw [SysexBuffer.message, SysexBuffer.message, ← h.length_eq]
  exact Memory.copy_congr fun i hi => h.read_eq hi

theorem SysexBuffer.Alike.eoxSlot_eq (draw : Nat) : S.eoxSlot draw = T.eoxSlot draw := by
  rw [SysexBuffer.eoxSlot, SysexBuffer.eoxSlot, h.length_eq]

theorem SysexBuffer.Alike.clear : S.clear.Alike T.clear :=
  ⟨⟨rfl, rfl, fun i hi => absurd hi (Nat.not_lt_zero i)⟩, h.left, h.right⟩

/-- Storing the same byte at the same index, behind bytes that agree. -/
theorem SysexBuffer.Alike.put {i : Nat} (hi : i < 2048) (hle : i ≤ S.length.val) (b : Byte) :
    (S.put i b).Alike (T.put i b) := by
  refine ⟨⟨rfl, h.droppedCount_eq, fun k hk => ?_⟩, Memory.write_wf b hi h.left, Memory.write_wf b hi h.right⟩
  rw [S.put_length b hi] at hk
  rw [SysexBuffer.read_put h.left, SysexBuffer.read_put h.right]
  split
  · rfl
  · exact h.read_eq (by omega)

theorem SysexBuffer.Alike.setDropped (n : Counter) :
    SysexBuffer.Alike { S with droppedCount := n } { T with droppedCount := n } :=
  ⟨⟨h.same.1, rfl, h.same.2.2⟩, h.left, h.right⟩

theorem SysexBuffer.Alike.append1 (draw : Nat) (b : Byte) :
    Did.Agree SysexBuffer.Alike (S.append1 draw b) (T.append1 draw b) := by
  unfold SysexBuffer.append1
  rw [← h.isComplete_eq, ← h.length_eq, ← h.droppedCount_eq, ← h.eoxSlot_eq draw]
  split_ifs with hcomplete hidle hstart hrestart heox hroom
  · exact ⟨h, rfl, rfl⟩
  · exact ⟨h.put (by decide) (Nat.zero_le _) 0xF0, rfl, rfl⟩
  · exact ⟨h, rfl, rfl⟩
  · exact ⟨(h.setDropped 0).put (by decide) (Nat.zero_le _) 0xF0, rfl, rfl⟩
  · exact ⟨h.put (S.eoxSlot_lt draw) (S.eoxSlot_le draw) 0xF7, rfl, rfl⟩
  · exact ⟨h.put (Nat.lt_of_lt_of_le hroom (by decide)) (Nat.le_refl _) b, rfl, rfl⟩
  · exact ⟨h.setDropped _, rfl, rfl⟩

end

theorem SysexBuffer.Alike.append {S T : SysexBuffer} (h : S.Alike T) (draw : Nat) (bs : List Byte) :
    Did.Agree SysexBuffer.Alike (S.append draw bs) (T.append draw bs) := by
  induction bs generalizing S T with
  | nil => exact ⟨h, rfl, rfl⟩
  | cons b bs ih =>
    obtain ⟨hnow, hresult, hevents⟩ := h.append1 draw b
    obtain ⟨hmore, hmoreResult, hmoreEvents⟩ := ih hnow
    simp only [SysexBuffer.append]
    rw [← hresult, ← hevents, ← hmoreResult, ← hmoreEvents]
    split_ifs
    · exact ⟨hmore, rfl, rfl⟩
    · exact ⟨hnow, hresult, hevents⟩

theorem SysexBuffer.Alike.scanAbort {S T : SysexBuffer} (h : S.Alike T) (draw : Nat) (bs : List Byte) :
    Did.Agree SysexBuffer.Alike (S.scanAbort draw bs) (T.scanAbort draw bs) := by
  unfold SysexBuffer.scanAbort
  rw [← h.isComplete_eq, ← h.length_eq]
  split_ifs
  · exact ⟨h, rfl, rfl⟩
  · exact ⟨h, rfl, rfl⟩
  · exact h.append1 draw 0xF7
  · exact ⟨h.clear, rfl, rfl⟩

theorem SysexBuffer.Alike.handOff {S T : SysexBuffer} (h : S.Alike T) (c : Cable) (es : List Event) :
    Did.Agree SysexBuffer.Alike (S.handOff c es) (T.handOff c es) :=
  ⟨h.clear, by rw [SysexBuffer.handOff, SysexBuffer.handOff, h.message_eq, h.droppedCount_eq], rfl⟩

theorem SysexBuffer.Alike.rxSysex {S T : SysexBuffer} (h : S.Alike T) (draw : Nat) (u : Unpacked) :
    Did.Agree SysexBuffer.Alike (S.rxSysex draw u) (T.rxSysex draw u) := by
  obtain ⟨hnow, hresult, hevents⟩ := h.append draw u.bytes
  simp only [SysexBuffer.rxSysex, ← hresult, ← hevents]
  cases (S.append draw u.bytes).result with
  | complete n => exact hnow.handOff u.cable _
  | continuing | aborted | refused => exact ⟨hnow, rfl, rfl⟩

theorem SysexBuffer.Alike.rxShort {S T : SysexBuffer} (h : S.Alike T) (draw : Nat) (u : Unpacked) :
    Did.Agree SysexBuffer.Alike (S.rxShort draw u) (T.rxShort draw u) := by
  obtain ⟨hnow, hresult, hevents⟩ := h.scanAbort draw u.bytes
  simp only [SysexBuffer.rxShort, ← h.length_eq, ← hresult, ← hevents]
  split_ifs
  · cases (S.scanAbort draw u.bytes).result with
    | complete n => exact hnow.handOff u.cable _
    | continuing | aborted | refused => exact ⟨hnow, rfl, rfl⟩
  · exact ⟨h, rfl, rfl⟩

theorem SysexBuffer.Alike.rxPacket {S T : SysexBuffer} (h : S.Alike T) (draw : Nat) (p : Packet) :
    Did.Agree SysexBuffer.Alike (S.rxPacket draw p) (T.rxPacket draw p) := by
  unfold SysexBuffer.rxPacket
  split
  · exact ⟨h, rfl, rfl⟩
  · split_ifs
    · exact h.rxSysex draw _
    · exact h.rxShort draw _

/-! #### One cable, the receive framer, the state -/

/-- An operation of a cable on frames and buffers alike. -/
theorem CableOp.run_agree (op : CableOp) (c : Cable) {F G : CableFrame} {S T : SysexBuffer} (hF : F.SameMeaning G)
    (hS : S.Alike T) (draw : Nat) :
    Did.Agree (fun x y => x.1.SameMeaning y.1 ∧ x.2.SameMeaning y.2) (op.run c F S draw) (op.run c G T draw) := by
  cases op with
  | feed b =>
    obtain ⟨hnow, hresult, hevents⟩ := CableFrame.feed_agree hF c b
    exact ⟨⟨hnow, hS.same⟩, congrArg OpResult.packet hresult, hevents⟩
  | unpack p => exact ⟨⟨hF, hS.same⟩, rfl, rfl⟩
  | rxPacket p =>
    obtain ⟨hnow, hresult, hevents⟩ := hS.rxPacket draw p
    exact ⟨⟨hF, hnow.same⟩, congrArg OpResult.message hresult, hevents⟩
  | append1 b =>
    obtain ⟨hnow, hresult, hevents⟩ := hS.append1 draw b
    exact ⟨⟨hF, hnow.same⟩, congrArg OpResult.accum hresult, hevents⟩
  | append bs =>
    obtain ⟨hnow, hresult, hevents⟩ := hS.append draw bs
    exact ⟨⟨hF, hnow.same⟩, congrArg OpResult.accum hresult, hevents⟩
  | scanAbort bs =>
    obtain ⟨hnow, hresult, hevents⟩ := hS.scanAbort draw bs
    exact ⟨⟨hF, hnow.same⟩, congrArg OpResult.accum hresult, hevents⟩
  | clear => exact ⟨⟨hF, hS.clear.same⟩, rfl, rfl⟩

/-- A payload byte stored by two framers that agree in state `PAYLOAD`: header, length, the count and the bytes below it
agree after it, whatever was above. -/
theorem RxFramer.storeByte_sameMeaning {x y : RxFramer} (h : x.SameMeaning y) (hp : x.state = .payload)
    (hx : Memory.wf 255 x.payload = true) (hy : Memory.wf 255 y.payload = true) (draw : Nat) (b : Byte) :
    (x.storeByte draw b).SameMeaning (y.storeByte draw b) := by
  obtain ⟨hstate, hheader, hpayload⟩ := h
  obtain ⟨hlen, hcount, hread⟩ := hpayload hp
  refine ⟨by simp [hstate], fun _ => by simp [hheader (by simp [hp])], fun _ => ⟨by simp [hlen], ?_⟩⟩
  obtain ⟨hlt, hsx⟩ | ⟨hfull, hsx⟩ := x.storeByte_cases draw b
  · obtain ⟨-, hsy⟩ | ⟨hfull, -⟩ := y.storeByte_cases draw b
    · rw [hsx, hsy, ← hcount]
      refine ⟨rfl, fun i hi => ?_⟩
      have hi' : i < x.count.toNat + 1 := lt_of_lt_of_eq hi (by bv_omega)
      rw [Memory.read_write hx, Memory.read_write hy]
      split
      · rfl
      · exact hread i (by omega)
    · rw [← hcount] at hfull
      omega
  · obtain ⟨hlt, -⟩ | ⟨-, hsy⟩ := y.storeByte_cases draw b
    · rw [← hcount] at hlt
      omega
    · rw [hsx, hsy]
      have hmax : (Config.rxCountOverrun draw).toNat ≤ 255 := Nat.le_of_lt_succ (Config.rxCountOverrun draw).isLt
      exact ⟨rfl, fun i hi => hread i (hfull ▸ lt_of_lt_of_le hi hmax)⟩

theorem RxFramer.receive_sameMeaning {x y : RxFramer} (h : x.SameMeaning y) (hx : Memory.wf 255 x.payload = true)
    (hy : Memory.wf 255 y.payload = true) (draw : Nat) (b : Byte) :
    (x.receive draw b).1.SameMeaning (y.receive draw b).1 ∧ (x.receive draw b).2 = (y.receive draw b).2 := by
  have ⟨hstate, hheader, _⟩ := h
  unfold RxFramer.receive
  rw [← hstate]
  cases hxs : x.state with
  | hdr => exact ⟨⟨rfl, fun _ => rfl, nofun⟩, rfl⟩
  | len =>
    have hh : x.header = y.header := hheader (by simp [hxs])
    dsimp only
    split_ifs
    · exact ⟨⟨rfl, fun hne => absurd rfl hne, nofun⟩, by rw [hh]⟩
    · exact ⟨⟨rfl, fun _ => hh, fun _ => ⟨rfl, rfl, fun i hi => absurd hi (Nat.not_lt_zero i)⟩⟩, rfl⟩
  | payload =>
    have hstored := RxFramer.storeByte_sameMeaning h hxs hx hy draw b
    have ⟨_, hheader', hpayload'⟩ := hstored
    obtain ⟨hlen, hcount, hread⟩ := hpayload' (by simp [hxs])
    dsimp only
    rw [← hlen, ← hcount]
    split_ifs with hlast
    · refine ⟨⟨rfl, fun hne => absurd rfl hne, nofun⟩, ?_⟩
      rw [hheader' (by simp [hxs]), Memory.copy_congr fun i hi => hread i (hlast ▸ hi)]
    · exact ⟨hstored, rfl⟩

theorem State.cableDid_agree {s t : State} (hs : s.memoryWf) (ht : t.memoryWf) (h : s.SameMeaning t) (c : Cable)
    (op : CableOp) : Did.Agree (fun x y => x.1.SameMeaning y.1 ∧ x.2.SameMeaning y.2) (s.cableDid c op)
      (t.cableDid c op) := by
  obtain ⟨hcable, hsysex, -, -, -, -, -, hdraws⟩ := h
  rw [State.cableDid, State.cableDid, ← hdraws]
  exact op.run_agree c (hcable c) ⟨hsysex c, hs.1 c, ht.1 c⟩ s.draws

/-- Every effect on states alike gives the same outcome and states alike. -/
theorem Effect.apply_agree (e : Effect) {s t : State} (hs : s.memoryWf) (ht : t.memoryWf) (h : s.SameMeaning t) :
    (e.apply s).SameMeaning (e.apply t) ∧ (e.apply s).result = (e.apply t).result ∧
    (e.apply s).events = (e.apply t).events := by
  have ⟨hcable, hsysex, hrx, hframing, hdrop, htxq, hinbox, hdraws⟩ := h
  cases e with
  | cable c op =>
    obtain ⟨⟨hF, hS⟩, hresult, hevents⟩ := State.cableDid_agree hs ht h c op
    refine ⟨⟨fun d => ?_, fun d => ?_, hrx, ?_, ?_, htxq, hinbox, hdraws⟩, hresult, hevents⟩
    · rw [Effect.apply, Effect.apply, State.onCable_cable, State.onCable_cable]
      split
      · exact hF
      · exact hcable d
    · rw [Effect.apply, Effect.apply, State.onCable_sysex, State.onCable_sysex]
      split
      · exact hS
      · exact hsysex d
    · simp only [Effect.apply, State.onCable_framingErrCount, hevents, hframing]
    · simp only [Effect.apply, State.onCable_txDropCount, hevents, hdrop]
  | enqueue frame =>
    simp only [Effect.apply, State.enqueue, ← htxq]
    exact ⟨⟨hcable, hsysex, hrx, congrArg (countEvents _ _) hframing, congrArg (countEvents _ _) hdrop, rfl, hinbox,
      hdraws⟩, rfl, rfl⟩
  | drain k =>
    simp only [Effect.apply, State.drain, ← htxq]
    exact ⟨⟨hcable, hsysex, hrx, hframing, hdrop, rfl, hinbox, hdraws⟩, rfl, rfl⟩
  | rxByte b =>
    obtain ⟨hnow, hresult⟩ := RxFramer.receive_sameMeaning hrx hs.2 ht.2 s.draws b
    simp only [Effect.apply, State.rxByte, ← hdraws, ← hresult]
    exact ⟨⟨hcable, hsysex, hnow, hframing, hdrop, htxq, hinbox, rfl⟩, rfl, rfl⟩
  | reset =>
    refine ⟨⟨fun d => ?_, fun d => ?_, ⟨rfl, fun hne => absurd rfl hne, nofun⟩, rfl, rfl, rfl, hinbox, hdraws⟩, rfl, rfl⟩
    · simp only [Effect.apply, State.finish_cable, State.quiesce_cable]
      exact CableFrame.sameMeaning_refl _
    · simp only [Effect.apply, State.finish_sysex, State.quiesce_sysex]
      exact (SysexBuffer.Alike.clear ⟨hsysex d, hs.1 d, ht.1 d⟩).same

/-- Settles O59: an instruction that answers has one effect, the same from both states. -/
theorem meaninglessStateIsNeverSeen : Obligations.MeaninglessStateIsNeverSeen := by
  intro i s t s' hs ht h hexec
  obtain ⟨e, -, he, rfl⟩ := effect_of_exec_next hexec
  exact ⟨e.apply t, he t, e.apply_agree hs ht h⟩

/-! ### Operations on different cables (R12, R18, R45) -/

theorem State.setCable_cf_comm (s : State) {c d : Cable} (hcd : c ≠ d) (f g : CableFrame) :
    ((s.setCable c f).setCable d g).cf = ((s.setCable d g).setCable c f).cf :=
  Vector.set_comm (hi := c.isLt) (hj := d.isLt) _ _ fun e => hcd (BitVec.eq_of_toNat_eq e)

theorem State.setSysex_sx_comm (s : State) {c d : Cable} (hcd : c ≠ d) (f g : SysexBuffer) :
    ((s.setSysex c f).setSysex d g).sx = ((s.setSysex d g).setSysex c f).sx :=
  Vector.set_comm (hi := c.isLt) (hj := d.isLt) _ _ fun e => hcd (BitVec.eq_of_toNat_eq e)

/-- What an operation does to its cable is not touched by an operation on another. -/
theorem State.cableDid_onCable_other (s : State) {c d : Cable} (hcd : c ≠ d) (op op' : CableOp) :
    (s.onCable d op').cableDid c op = s.cableDid c op := by
  rw [State.cableDid, State.onCable_cable, State.onCable_sysex, if_neg hcd, if_neg hcd]
  rfl

/-- `PC.FEED`, the accumulator operations and `PC.RX_PACKET` are operations of their cable. -/
theorem exec_onCable {c : Cable} {b : Byte} {bs : List Byte} {p : Packet} (hp : hiNibble p.b0 = c) {i : Instr}
    (hi : i ∈ ([.pcFeed c b, .sxAppend1 c b, .sxAppend c bs, .sxScanAbort c bs, .sxReset c, .pcRxPacket p] :
      List Instr)) : ∃ op : CableOp, ∀ s, exec i s = .next (s.onCable c op) := by
  obtain rfl | hi := List.mem_cons.mp hi
  · exact ⟨.feed b, fun s => congrArg Host.Outcome.next (s.feed_eq_onCable c b)⟩
  · obtain ⟨op, hexec, -⟩ := exec_accumulator hp hi
    exact ⟨op, hexec⟩

/-- Settles O60: an operation of one cable finds its frame and buffer as they were, and writes beside the other's. -/
theorem cablesAreIndependent : Obligations.CablesAreIndependent := by
  intro s c d b b' bs bs' p p' hcd hp hp' i hi j hj
  obtain ⟨op, hop⟩ := exec_onCable hp hi
  obtain ⟨op', hop'⟩ := exec_onCable hp' hj
  have hdc := s.cableDid_onCable_other hcd.symm op' op
  have hcd' := s.cableDid_onCable_other hcd op op'
  refine ⟨_, _, _, _, hop s, hop' _, hop' s, hop _, ?_⟩
  simp only [State.onCable_result, State.onCable_events, State.onCable_framingErrCount, State.onCable_txDropCount,
    State.onCable_txq, State.onCable_rx, hdc, hcd', true_and, and_true]
  refine ⟨?_, ?_, countEvents_comm _ _ _ _, countEvents_comm _ _ _ _⟩
  · simp only [State.onCable_cf, State.setCable, hdc, hcd']
    exact s.setCable_cf_comm hcd _ _
  · simp only [State.onCable_sx, State.setSysex, hdc, hcd']
    exact s.setSysex_sx_comm hcd _ _

end Sys2Proof.Machine

/-! PROOFS. The memory family: the receive framer over the bytes of whole frames, and the frames that cross the link. -/

namespace Sys2Proof.Machine

/-! ### Runs -/

/-- The converse of `runOps_cons`: an operation that answers goes in front of a run from its answer. -/
theorem runOps_cons_of_next {i : Instr} {is : List Instr} {s t u : State} {rest : List Seen} (hexec : exec i s = .next t)
    (hrest : runOps is t = some (rest, u)) : runOps (i :: is) s = some ((t.result, t.events) :: rest, u) := by
  simp only [runOps, hexec, hrest]

theorem runOps_append {is js : List Instr} {s t u : State} {seen seen' : List Seen}
    (his : runOps is s = some (seen, t)) (hjs : runOps js t = some (seen', u)) :
    runOps (is ++ js) s = some (seen ++ seen', u) := by
  induction is generalizing s seen with
  | nil =>
    obtain ⟨rfl, rfl⟩ := Prod.mk.inj (Option.some.inj his)
    exact hjs
  | cons i is ih =>
    obtain ⟨v, rest, hexec, hrest, rfl⟩ := runOps_cons his
    exact runOps_cons_of_next hexec (ih hrest)

/-! ### A payload byte (R179) -/

/-- Writing the index behind the copied bytes adds one byte to the copy. -/
theorem Memory.copy_write_succ {cap : Nat} {m : Memory} (hm : Memory.wf cap m = true) (n : Nat) (b : Byte) :
    Memory.copy (Memory.write m n b) (n + 1) = Memory.copy m n ++ [b] := by
  have hbelow : Memory.copy (Memory.write m n b) n = Memory.copy m n :=
    Memory.copy_congr fun i hi => by rw [Memory.read_write hm, if_neg hi.ne]
  rw [Memory.copy_succ, hbelow, Memory.read_write hm, if_pos rfl]

/-- While `count` is below the length byte, a byte is stored behind those stored already. -/
theorem RxFramer.storeByte_of_count_lt {rx : RxFramer} (hlt : rx.count < rx.len)
    (hwf : Memory.wf 255 rx.payload = true) (draw : Nat) (b : Byte) :
    (rx.storeByte draw b).count.toNat = rx.count.toNat + 1 ∧
    Memory.copy (rx.storeByte draw b).payload (rx.storeByte draw b).count.toNat =
      Memory.copy rx.payload rx.count.toNat ++ [b] := by
  obtain ⟨-, hstored⟩ | ⟨hfull, -⟩ := rx.storeByte_cases draw b
  · have hcount : (rx.count + 1).toNat = rx.count.toNat + 1 := by bv_omega
    rw [hstored]
    exact ⟨hcount, by rw [hcount, Memory.copy_write_succ hwf]⟩
  · bv_omega

/-! ### The bytes that complete a frame (R176 to R181) -/

/-- Given to `CF.RX_BYTE` in order, the bytes return `None` up to the last, which returns the frame, and leave the framer
in `HDR` with its array in canonical form. -/
def State.Completes (s : State) (bytes : List Byte) (frame : Frame) : Prop :=
  ∃ seen t, runOps (bytes.map Instr.cfRxByte) s = some (seen ++ [(.frame (some frame), [])], t) ∧
    (∀ o ∈ seen, o = (.frame none, [])) ∧ t.rx.state = .hdr ∧ Memory.wf 255 t.rx.payload = true

section
variable {s : State} {b : Byte} {bytes : List Byte} {frame : Frame} {rx : RxFramer}

/-- A byte given to `CF.RX_BYTE` in front of others. -/
theorem runOps_cfRxByte_cons {r : Option Frame} {rest : List Seen} {u : State}
    (h : s.rx.receive s.draws b = (rx, r)) (hrest : runOps (bytes.map Instr.cfRxByte) (s.rxByte b) = some (rest, u)) :
    runOps ((b :: bytes).map Instr.cfRxByte) s = some ((.frame r, []) :: rest, u) := by
  have hseen : ((s.rxByte b).result, (s.rxByte b).events) = (.frame r, []) := by simp [State.rxByte, h]
  rw [← hseen]
  exact runOps_cons_of_next rfl hrest

theorem State.rxByte_rx_of_receive {r : Option Frame} (h : s.rx.receive s.draws b = (rx, r)) :
    (s.rxByte b).rx = rx := congrArg Prod.fst h

theorem State.completes_last (h : s.rx.receive s.draws b = (rx, some frame)) (hstate : rx.state = .hdr)
    (hwf : Memory.wf 255 rx.payload = true) : s.Completes [b] frame := by
  rw [← State.rxByte_rx_of_receive h] at hstate hwf
  exact ⟨[], s.rxByte b, runOps_cfRxByte_cons h rfl, nofun, hstate, hwf⟩

theorem State.completes_cons (h : s.rx.receive s.draws b = (rx, none))
    (hrest : (s.rxByte b).Completes bytes frame) : s.Completes (b :: bytes) frame := by
  obtain ⟨seen, t, hrun, hnone, hend⟩ := hrest
  exact ⟨_ :: seen, t, runOps_cfRxByte_cons h hrun, List.forall_mem_cons.mpr ⟨rfl, hnone⟩, hend⟩

end

/-- In state `PAYLOAD` the missing bytes complete the frame: its payload is what was stored and these (R179). -/
theorem State.completes_payload {rest : List Byte} {b : Byte} {s : State} (hstate : s.rx.state = .payload)
    (hlen : s.rx.len.toNat = s.rx.count.toNat + (b :: rest).length) (hwf : Memory.wf 255 s.rx.payload = true) :
    s.Completes (b :: rest) ⟨s.rx.header, Memory.copy s.rx.payload s.rx.count.toNat ++ b :: rest⟩ := by
  induction rest generalizing s b with
  | nil =>
    rw [List.length_singleton] at hlen
    obtain ⟨hcount, hcopy⟩ := RxFramer.storeByte_of_count_lt (by bv_omega) hwf s.draws b
    have hlast : (s.rx.storeByte s.draws b).count = s.rx.len := BitVec.eq_of_toNat_eq (hcount.trans hlen.symm)
    have hreceive : s.rx.receive s.draws b = ({ s.rx.storeByte s.draws b with state := .hdr },
        some ⟨s.rx.header, Memory.copy s.rx.payload s.rx.count.toNat ++ [b]⟩) := by
      rw [← hcopy, hlast]
      simp [RxFramer.receive, hstate, hlast]
    exact State.completes_last hreceive rfl (s.rx.storeByte_wf s.draws b hwf)
  | cons b' rest ih =>
    rw [List.length_cons] at hlen
    obtain ⟨hcount, hcopy⟩ := RxFramer.storeByte_of_count_lt (by bv_omega) hwf s.draws b
    have hmore : (s.rx.storeByte s.draws b).count ≠ s.rx.len := fun h => by
      rw [← h, hcount, List.length_cons] at hlen
      omega
    have hreceive : s.rx.receive s.draws b = (s.rx.storeByte s.draws b, none) := by
      simp [RxFramer.receive, hstate, hmore]
    have hrx := State.rxByte_rx_of_receive hreceive
    have hrest : (s.rxByte b).Completes (b' :: rest) _ :=
      ih (by rw [hrx, RxFramer.storeByte_state, hstate])
        (by rw [hrx, RxFramer.storeByte_len, hlen, hcount]; omega)
        (by rw [hrx]; exact s.rx.storeByte_wf s.draws b hwf)
    rw [hrx, hcopy, RxFramer.storeByte_header, ← List.append_cons] at hrest
    exact State.completes_cons hreceive hrest

/-- In state `LEN` the length byte and the payload complete the frame (R178). -/
theorem State.completes_length {payload : List Byte} (hlen : payload.length ≤ 255) {s : State}
    (hstate : s.rx.state = .len) (hwf : Memory.wf 255 s.rx.payload = true) :
    s.Completes (BitVec.ofNat 8 payload.length :: payload) ⟨s.rx.header, payload⟩ := by
  cases payload with
  | nil =>
    have hreceive : s.rx.receive s.draws 0 =
        ({ s.rx with len := 0, count := 0, state := .hdr }, some ⟨s.rx.header, []⟩) := by
      simp [RxFramer.receive, hstate]
    exact State.completes_last hreceive rfl hwf
  | cons b rest =>
    have htoNat : (BitVec.ofNat 8 (b :: rest).length).toNat = (b :: rest).length :=
      Nat.mod_eq_of_lt (Nat.lt_succ_of_le hlen)
    have hne : BitVec.ofNat 8 (b :: rest).length ≠ 0 := fun h =>
      absurd (htoNat.symm.trans (congrArg BitVec.toNat h)) (Nat.succ_ne_zero _)
    have hreceive : s.rx.receive s.draws (BitVec.ofNat 8 (b :: rest).length) =
        ({ s.rx with len := BitVec.ofNat 8 (b :: rest).length, count := 0, state := .payload }, none) := by
      rw [RxFramer.receive, hstate]
      exact if_neg hne
    have hrx := State.rxByte_rx_of_receive hreceive
    have hpayload := State.completes_payload (b := b) (rest := rest) (by rw [hrx])
      (by rw [hrx]; exact htoNat.trans (Nat.zero_add _).symm) (by rw [hrx]; exact hwf)
    rw [hrx] at hpayload
    exact State.completes_cons hreceive hpayload

/-- In `HDR` the bytes of a frame complete it (R177). -/
theorem State.completes_encodeFrame (header : Byte) {payload : List Byte} (hlen : payload.length ≤ 255) {s : State}
    (hstate : s.rx.state = .hdr) (hwf : Memory.wf 255 s.rx.payload = true) :
    s.Completes (encodeFrame header payload) ⟨header, payload⟩ := by
  have hreceive : s.rx.receive s.draws header = ({ s.rx with header := header, state := .len }, none) := by
    simp [RxFramer.receive, hstate]
  have hrx := State.rxByte_rx_of_receive hreceive
  have hlength := State.completes_length hlen (by rw [hrx]) (by rw [hrx]; exact hwf)
  rw [hrx] at hlength
  exact State.completes_cons hreceive hlength

/-! ### Whole frames, one after another (R181) -/

theorem framesOf_append (seen seen' : List Seen) : framesOf (seen ++ seen') = framesOf seen ++ framesOf seen' :=
  List.filterMap_append

theorem framesOf_of_forall_none {seen : List Seen} (h : ∀ o ∈ seen, o = (.frame none, [])) : framesOf seen = [] :=
  List.filterMap_eq_nil_iff.mpr fun o ho => by rw [h o ho]

/-- From `HDR`, the bytes of frames return those frames and end in `HDR`. -/
theorem receive_wireBytes {frames : List Frame} (hlen : ∀ f ∈ frames, f.payload.length ≤ 255) {s : State}
    (hstate : s.rx.state = .hdr) (hwf : Memory.wf 255 s.rx.payload = true) :
    ∃ seen t, runOps ((wireBytes frames).map Instr.cfRxByte) s = some (seen, t) ∧ framesOf seen = frames ∧
      t.rx.state = .hdr := by
  induction frames generalizing s with
  | nil => exact ⟨[], s, rfl, rfl, hstate⟩
  | cons f fs ih =>
    obtain ⟨hf, hfs⟩ := List.forall_mem_cons.mp hlen
    obtain ⟨seen, t, hrun, hnone, hstate', hwf'⟩ := State.completes_encodeFrame f.header hf hstate hwf
    obtain ⟨seen', u, hrun', hframes, hend⟩ := ih hfs hstate' hwf'
    have hboth := runOps_append hrun hrun'
    rw [← List.map_append] at hboth
    refine ⟨_, u, hboth, ?_, hend⟩
    rw [framesOf_append, framesOf_append, framesOf_of_forall_none hnone, hframes]
    rfl

/-! ### Frames across the link (R46, R52) -/

/-- A frame whose instruction is answered has an encoding (R172). -/
theorem length_le_of_sentFrame {i : Instr} {s t : State} {frame : Frame} (hsent : sentFrame i = some frame)
    (hexec : exec i s = .next t) : frame.payload.length ≤ 255 := by
  rw [exec_of_sentFrame hsent] at hexec
  obtain ⟨hlen, -⟩ | ⟨-, hrefused⟩ := s.writeCmd_cases frame.header frame.payload
  · exact hlen
  · simp [hrefused] at hexec

/-- The frames that a run accepts have encodings. -/
theorem length_le_of_acceptedFrames {instrs : List Instr} {s u : State} {seen : List Seen}
    (hrun : runOps instrs s = some (seen, u)) : ∀ f ∈ acceptedFrames instrs seen, f.payload.length ≤ 255 := by
  induction instrs generalizing s seen with
  | nil => simp [acceptedFrames]
  | cons i is ih =>
    obtain ⟨t, rest, hexec, hrest, rfl⟩ := runOps_cons hrun
    have hlater := ih hrest
    rw [acceptedFrames]
    split
    · next frame hsent _ => exact List.forall_mem_cons.mpr ⟨length_le_of_sentFrame hsent hexec, hlater⟩
    · exact hlater

/-- Settles O51: with the queue empty at both ends, the bytes drained are the wire bytes of the frames accepted, so where
the drains were cut does not matter; and those bytes return those frames. -/
theorem framesCrossTheLink : Obligations.FramesCrossTheLink := by
  intro instrs s t r seen hreset hrun hs ht hstate hwf
  have hdrained : wireBytes (acceptedFrames instrs seen) = drainedOf seen := by
    simpa [hs, ht] using queueIsFirstInFirstOut instrs s t seen hreset hrun
  rw [← hdrained]
  exact receive_wireBytes (length_le_of_acceptedFrames hrun) hstate hwf

end Sys2Proof.Machine

/-! PROOFS. The encoding family: the decoder inverts the encoder, what it accepts is well formed, every packet, stream byte
and frame reaches its operation, and a code without an operation is refused. -/

namespace Sys2Proof

/-! ### What each operand form accepts (R53, R92, R116) -/

theorem eq_ofNat_of_toNat {b : Byte} {n : Nat} (h : b.toNat = n) : b = BitVec.ofNat 8 n := by
  rw [← h, BitVec.ofNat_toNat, BitVec.setWidth_eq]

theorem takeNone_eq_ok_iff {i j : Instr} {bytes : List Byte} : takeNone i bytes = .ok j ↔ bytes = [] ∧ j = i := by
  cases bytes <;> simp [takeNone, eq_comm]

theorem takeByte_eq_ok_iff {f : Byte → Instr} {bytes : List Byte} {j : Instr} :
    takeByte f bytes = .ok j ↔ ∃ b, bytes = [b] ∧ j = f b := by
  match bytes with
  | [] | [_] | _ :: _ :: _ => simp [takeByte, eq_comm]

theorem takePacket_eq_ok_iff {f : Packet → Instr} {bytes : List Byte} {j : Instr} :
    takePacket f bytes = .ok j ↔ ∃ p, bytes = packetBytes p ∧ j = f p := by
  constructor
  · intro h
    unfold takePacket at h
    split at h
    · exact ⟨_, rfl, (Except.ok.inj h).symm⟩
    · cases h
    · cases h
  · rintro ⟨p, rfl, rfl⟩
    rfl

theorem takeRun_eq_ok_iff {least most : Nat} {f : List Byte → Instr} {bytes : List Byte} {j : Instr} :
    takeRun least most f bytes = .ok j ↔ (least ≤ bytes.length ∧ bytes.length ≤ most) ∧ j = f bytes := by
  unfold takeRun
  split_ifs
  · simp; omega
  · simp; omega
  · simp [eq_comm]; omega

/-- A frame is accepted when its length byte says how many payload bytes follow; a byte says at most 255 (R93). -/
theorem takeFrame_eq_ok_iff {f : Byte → List Byte → Instr} {bytes : List Byte} {j : Instr} :
    takeFrame f bytes = .ok j ↔
      ∃ header payload, payload.length ≤ 255 ∧ bytes = frameBytes header payload ∧ j = f header payload := by
  constructor
  · intro h
    unfold takeFrame at h
    split at h
    · next header length payload =>
      split_ifs at h with hshort hlong
      have hlen : payload.length = length.toNat := by omega
      have hbyte : length = BitVec.ofNat 8 payload.length := eq_ofNat_of_toNat hlen.symm
      exact ⟨header, payload, by omega, by rw [frameBytes, ← hbyte], (Except.ok.inj h).symm⟩
    · cases h
  · rintro ⟨header, payload, hlen, rfl, rfl⟩
    have hbyte : (BitVec.ofNat 8 payload.length).toNat = payload.length := Nat.mod_eq_of_lt (by omega)
    simp [takeFrame, frameBytes, hbyte]

theorem withoutCable_eq_ok_iff {high : Nibble} {r : Except Reject Instr} {j : Instr} :
    withoutCable high r = .ok j ↔ high = 0 ∧ r = .ok j := by
  unfold withoutCable
  split_ifs with h
  · simp [h]
  · exact iff_of_false nofun fun hr => h hr.1

/-! ### The row of a packet, a stream byte and a frame -/

/-- A byte of known halves. -/
theorem eq_joinNibbles_of_toNat {b : Byte} {h l : Nat} (hhi : (hiNibble b).toNat = h) (hlo : (loNibble b).toNat = l) :
    b = joinNibbles (BitVec.ofNat 4 h) (BitVec.ofNat 4 l) := by
  subst hhi hlo
  simpa using (joinNibbles_hi_lo b).symm

theorem eq_joinNibbles_of_hi {b : Byte} {h : Nat} (hhi : (hiNibble b).toNat = h) :
    b = joinNibbles (BitVec.ofNat 4 h) (loNibble b) := by
  simpa using eq_joinNibbles_of_toNat hhi rfl

theorem eq_joinNibbles_of_lo {b : Byte} {l : Nat} (hlo : (loNibble b).toNat = l) :
    b = joinNibbles (hiNibble b) (BitVec.ofNat 4 l) := by
  simpa using eq_joinNibbles_of_toNat rfl hlo

theorem hiNibble_dataByte (v : BitVec 7) : (hiNibble (dataByte v)).toNat < 8 := by
  revert v; decide

theorem extract_dataByte (v : BitVec 7) : (dataByte v).extractLsb' 0 7 = v := by
  revert v; decide

theorem dataByte_extract {b : Byte} (h : (hiNibble b).toNat < 8) : dataByte (b.extractLsb' 0 7) = b := by
  revert b; decide

theorem nibbles_realtimeByte (r : BitVec 3) :
    hiNibble (realtimeByte r) = 0xF ∧ 8 ≤ (loNibble (realtimeByte r)).toNat := by
  revert r; decide

theorem extract_realtimeByte (r : BitVec 3) : (realtimeByte r).extractLsb' 0 3 = r := by
  revert r; decide

theorem realtimeByte_extract {b : Byte} (hhi : (hiNibble b).toNat = 0xF) (hlo : 8 ≤ (loNibble b).toNat) :
    realtimeByte (b.extractLsb' 0 3) = b := by
  revert b; decide

theorem midiInstr_dataByte (op : ByteOp) (c : Cable) (v : BitVec 7) : midiInstr op c (dataByte v) = .data op c v := by
  have hhi := hiNibble_dataByte v
  unfold midiInstr
  split
  case h_9 => rw [extract_dataByte]
  all_goals omega

theorem midiInstr_realtimeByte (op : ByteOp) (c : Cable) (r : BitVec 3) :
    midiInstr op c (realtimeByte r) = .stRealtime op c r := by
  obtain ⟨hhi, hlo⟩ := nibbles_realtimeByte r
  simp only [midiInstr, hhi, BitVec.reduceToNat]
  split
  case h_9 => rw [extract_realtimeByte]
  all_goals omega

/-- A frame whose header is not assigned: the row `MIDI_DATA`, or no row of its own (R113, R115). -/
theorem frameInstr_of_unassigned {header : Byte} (h : header ∉ Config.assignedHeaders) (midiHeader : Byte)
    (payload : List Byte) : frameInstr midiHeader header payload =
      if header = midiHeader then .midiData payload else .cfWriteCmd header payload := by
  unfold frameInstr
  split
  case h_19 => rfl
  all_goals
    next hheader =>
    rw [eq_ofNat_of_toNat hheader] at h
    exact absurd h (by decide)

/-! ### The requests of the encoder -/

theorem decode_packetRequest (cin : Nibble) (op : PacketOp) (cn : Cable) (d0 d1 d2 : Byte) :
    decode (packetRequest cin op cn d0 d1 d2) = .ok (packetInstr op ⟨joinNibbles cn cin, d0, d1, d2⟩) := rfl

theorem decode_midi (op : ByteOp) (c : Cable) (b : Byte) : decode (.midi op c [b]) = .ok (midiInstr op c b) := rfl

theorem decode_frame (header : Byte) {payload : List Byte} (h : payload.length ≤ 255) :
    decode (.frame (frameBytes header payload)) = .ok (frameInstr Config.hdrMidiData header payload) :=
  takeFrame_eq_ok_iff.mpr ⟨header, payload, h, rfl, rfl⟩

/-- The base-256 digits of `k` are the digits of `k` (notes/assumptions/2.md). -/
theorem natOfBytes_bytesOfNat {fuel k : Nat} (h : k ≤ fuel) : natOfBytes (bytesOfNat fuel k) = k := by
  induction fuel generalizing k with
  | zero => obtain rfl := Nat.le_zero.mp h; rfl
  | succ fuel ih =>
    cases k with
    | zero => rfl
    | succ k =>
      rw [bytesOfNat, natOfBytes, ih (by omega), BitVec.toNat_ofNat]
      omega

/-- Settles O1, format by format: an operation's code and operands, a packet's CIN, a byte's class, a frame's header. -/
theorem decodeOfEncode : Obligations.DecodeOfEncode := by
  intro i hwf
  cases i with
  | reset | pcFeed | sxAppend1 | sxReset | cfRxByte | pcUnpack | pcRxPacket =>
    simp [encode, decode, opselRequest, decodeOpsel, withoutCable_eq_ok_iff, takeNone_eq_ok_iff, takeByte_eq_ok_iff,
      takePacket_eq_ok_iff, packetBytes]
  | sxAppend c bytes =>
    have hlen : bytes.length ≤ 3 := of_decide_eq_true hwf
    simp [encode, decode, opselRequest, decodeOpsel, takeRun_eq_ok_iff, hlen]
  | sxScanAbort c bytes =>
    have hlen : 1 ≤ bytes.length ∧ bytes.length ≤ 3 := by simpa [WellFormed, scanBytesOk] using hwf
    simp [encode, decode, opselRequest, decodeOpsel, takeRun_eq_ok_iff, hlen]
  | cfWriteCmd header payload =>
    have hlen : payload.length ≤ 255 := of_decide_eq_true hwf
    simp [encode, decode, opselRequest, decodeOpsel, withoutCable_eq_ok_iff, takeFrame_eq_ok_iff, hlen]
  | cfDrain k =>
    simp [encode, decode, opselRequest, decodeOpsel, withoutCable_eq_ok_iff, natOfBytes_bytesOfNat]
  | cinReserved0 | cinReserved1 | cinSyscom2 | cinSyscom3 | cinSysexStart | cinSysexEnd1 | cinSysexEnd2 | cinSysexEnd3
  | cinNoteOff | cinNoteOn | cinPolyPressure | cinControlChange | cinProgramChange | cinChannelPressure
  | cinPitchBend | cinSingleByte => simp [encode, decode_packetRequest, packetInstr]
  | data op c v => rw [encode, decode_midi, midiInstr_dataByte]
  | stRealtime op c r => rw [encode, decode_midi, midiInstr_realtimeByte]
  | stNoteOff | stNoteOn | stPolyPressure | stControlChange | stProgramChange | stChannelPressure | stPitchBend =>
    simp [encode, decode_midi, midiInstr]
  | stSysexStart | stSyscomF1 | stSyscomF2 | stSyscomF3 | stSingleF4 | stSingleF5 | stSingleF6 | stEox => rfl
  | requestDevDesc | returnDevDesc | requestDevStringIdxs | returnDevStringIdxs | requestDevLangids
  | returnDevLangids | requestDevString | returnDevString | resynchronize | requestConfDesc0 | returnConfDesc0
  | requestConfDesc1 | returnConfDesc1 | requestConfDesc2 | returnConfDesc2 | navButtonStatus | activeMcCable
  | chanButtonMode => exact decode_frame _ (of_decide_eq_true hwf)
  | midiData payload =>
    rw [encode, decode_frame _ (of_decide_eq_true hwf), frameInstr_of_unassigned Config.hdrMidiData_unassigned,
      if_pos rfl]

/-- Settles O3: each request, written out, is the encoding of its instruction. -/
theorem writtenOutRequestsDecode : Obligations.WrittenOutRequestsDecode :=
  ⟨decodeOfEncode (.cinProgramChange .unpack 3 0xC5 0x07 0x00) rfl, decodeOfEncode (.stNoteOn .feed 2 0xA) rfl,
    decodeOfEncode (.stRealtime .append1 0 6) rfl, decodeOfEncode (.requestDevString [0x02, 0x09, 0x04]) rfl,
    decodeOfEncode (.pcFeed 5 0x90) rfl⟩

end Sys2Proof

namespace Sys2Proof.Machine

/-! ### What the row of a datum does -/

/-- A packet is that of its row. -/
theorem Packet.ofFields_of_cin {p : Packet} {n : Nat} (h : (loNibble p.b0).toNat = n) :
    Packet.ofFields (BitVec.ofNat 4 n) (hiNibble p.b0) p.b1 p.b2 p.b3 = p := by
  rw [Packet.ofFields, ← eq_joinNibbles_of_lo h]

/-- The row of a packet gives the packet to its operation. -/
theorem exec_packetInstr (op : PacketOp) (p : Packet) (s : State) :
    exec (packetInstr op p) s = .next (s.givePacket op p) := by
  have hgive {n : Nat} (h : (loNibble p.b0).toNat = n) :
      s.givePacket op (Packet.ofFields (BitVec.ofNat 4 n) (hiNibble p.b0) p.b1 p.b2 p.b3) = s.givePacket op p := by
    rw [Packet.ofFields_of_cin h]
  unfold packetInstr
  split
  case h_16 =>
    simp only [imp_false] at *
    exact congrArg Host.Outcome.next (hgive (n := 0xF) (by omega))
  all_goals next h => exact congrArg Host.Outcome.next (hgive h)

/-- The row of a stream byte gives the byte to its operation. -/
theorem exec_midiInstr (op : ByteOp) (c : Cable) (b : Byte) (s : State) :
    exec (midiInstr op c b) s = .next (s.giveByte op c b) := by
  have hgive {b' : Byte} (h : b = b') : (.next (s.giveByte op c b') : Host.Outcome State Fault Refusal) =
      .next (s.giveByte op c b) := by rw [h]
  unfold midiInstr
  split
  case h_8 hhi =>
    split
    case h_9 =>
      simp only [imp_false] at *
      exact hgive (realtimeByte_extract hhi (by omega)).symm
    all_goals next hlo => exact hgive (eq_joinNibbles_of_toNat hhi hlo)
  case h_9 =>
    simp only [imp_false] at *
    exact hgive (dataByte_extract (by omega)).symm
  all_goals next hhi => exact hgive (eq_joinNibbles_of_hi hhi)

/-- The row of a frame, or `CF.WRITE_CMD` where it has none, sends the frame. -/
theorem sentFrame_frameInstr (header : Byte) (payload : List Byte) :
    sentFrame (frameInstr Config.hdrMidiData header payload) = some ⟨header, payload⟩ := by
  have hframe {header' : Byte} (h : header = header') :
      some (Frame.mk header' payload) = some ⟨header, payload⟩ := by rw [h]
  unfold frameInstr
  split
  case h_19 =>
    split_ifs with hmidi
    · exact hframe hmidi
    · rfl
  all_goals next h => exact hframe (eq_ofNat_of_toNat h)

/-- Settles O4: the decoder names the datum's row, and the row gives the datum to the operation. -/
theorem everyDatumReachesItsOperation : Obligations.EveryDatumReachesItsOperation := by
  refine ⟨fun p => ?_, fun p => ?_, fun c b => ?_, fun c b => ?_, fun header payload hlen => ?_⟩
  · exact ⟨packetInstr .unpack p, rfl, exec_packetInstr .unpack p⟩
  · exact ⟨packetInstr .rxPacket p, rfl, exec_packetInstr .rxPacket p⟩
  · exact ⟨midiInstr .feed c b, rfl, exec_midiInstr .feed c b⟩
  · exact ⟨midiInstr .append1 c b, rfl, exec_midiInstr .append1 c b⟩
  · rw [encodeFrame_eq_frameBytes]
    exact ⟨_, decode_frame header hlen, exec_of_sentFrame (sentFrame_frameInstr header payload)⟩

/-! ### What is accepted is well formed -/

theorem wellFormed_packetInstr (op : PacketOp) (p : Packet) : WellFormed (packetInstr op p) = true := by
  unfold packetInstr
  split <;> rfl

theorem wellFormed_midiInstr (op : ByteOp) (c : Cable) (b : Byte) : WellFormed (midiInstr op c b) = true := by
  unfold midiInstr
  split
  case h_8 => split <;> rfl
  all_goals rfl

/-- The operands of an operation of R116 are accepted within their bounds. -/
theorem wellFormed_of_decodeOpsel {bytes : List Byte} {i : Instr} (h : decodeOpsel bytes = .ok i) :
    WellFormed i = true := by
  cases bytes with
  | nil => cases h
  | cons first operands =>
    simp only [decodeOpsel] at h
    split at h <;>
      simp only [withoutCable_eq_ok_iff, takeNone_eq_ok_iff, takeByte_eq_ok_iff, takePacket_eq_ok_iff,
        takeRun_eq_ok_iff, takeFrame_eq_ok_iff, Except.ok.injEq, reduceCtorEq] at h
    case h_8 | h_10 => obtain ⟨-, rfl⟩ := h; rfl
    case h_1 | h_2 | h_5 => obtain ⟨_, -, rfl⟩ := h; rfl
    case h_3 | h_4 | h_11 => obtain ⟨-, _, -, rfl⟩ := h; rfl
    case h_6 =>
      obtain ⟨⟨-, hmost⟩, rfl⟩ := h
      exact decide_eq_true hmost
    case h_7 =>
      obtain ⟨⟨hleast, hmost⟩, rfl⟩ := h
      simp [WellFormed, scanBytesOk, hleast, hmost]
    case h_9 =>
      obtain ⟨-, header, payload, hlen, -, rfl⟩ := h
      exact decide_eq_true hlen

/-- Settles O2, format by format. -/
theorem decodedIsWellFormed : Obligations.DecodedIsWellFormed := by
  intro r i h
  cases r with
  | opsel bytes => exact wellFormed_of_decodeOpsel h
  | packet op bytes =>
    obtain ⟨p, -, rfl⟩ := takePacket_eq_ok_iff.mp h
    exact wellFormed_packetInstr op p
  | midi op c bytes =>
    obtain ⟨b, -, rfl⟩ := takeByte_eq_ok_iff.mp h
    exact wellFormed_midiInstr op c b
  | frame bytes =>
    obtain ⟨header, payload, hlen, -, rfl⟩ := takeFrame_eq_ok_iff.mp h
    exact (wellFormed_of_sentFrame (sentFrame_frameInstr header payload)).mpr hlen

/-! ### OPSEL codes without an operation -/

theorem step_of_decode_error {s t : State} {r : Request} {why : Reject} (hfetch : s.fetch = some (r, t))
    (hdecode : decode r = .error why) : step s = .refused (.undecodable why) := by
  simp only [step, hfetch, hdecode]

theorem decodeOpsel_of_unassigned {code : Nibble} (h : 0xB ≤ code) (cable : Nibble) (operands : List Byte) :
    decodeOpsel (joinNibbles cable code :: operands) = .error .unassignedOpsel := by
  have hcode : 0xB ≤ code.toNat := h
  simp only [decodeOpsel, loNibble_joinNibbles]
  split
  case h_12 => rfl
  all_goals omega

/-- Settles O5: no operation has the code, so the decoder answers before it looks at the operands. -/
theorem unassignedOpselRefused : Obligations.UnassignedOpselRefused :=
  fun _ _ cable operands _ hcode hinbox =>
    step_of_decode_error (State.fetch_cons hinbox) (decodeOpsel_of_unassigned hcode cable operands)

end Sys2Proof.Machine

/-! PROOFS. The encoding family: what the rows of the three data formats do. -/

namespace Sys2Proof.Machine

/-! ### A byte fed at `filled == 0` (R123 to R131) -/

theorem CableFrame.feed_status {F : CableFrame} {b : Byte} (hfilled : F.filled = 0) (hb : isStatus b = true)
    (c : Cable) : F.feed c b = CableFrame.complete
      ⟨⟨packetHead c (startShape b).1, b, 0x00, 0x00⟩, 1, (startShape b).2, inSysexAfterStart b⟩ [] := by
  rw [CableFrame.feed, if_pos hfilled, CableFrame.first, if_pos hb]
  rfl

section
variable {s : State} {c : Cable} {b : Byte} (hfilled : (s.cable c).filled = 0)
include hfilled

/-- A data byte while a SysEx is open begins a continuation packet (R123). -/
theorem State.feed_data (hb : isStatus b = false) (hsysex : (s.cable c).inSysex = true) :
    s.feed c b = s.began c b 0x4 3 true := by
  have hfeed : (s.cable c).feed c b = ⟨⟨⟨packetHead c 0x4, b, 0x00, 0x00⟩, 1, 3, true⟩, none, []⟩ := by
    simp [CableFrame.feed, CableFrame.first, CableFrame.start, CableFrame.complete, hfilled, hb, hsysex]
  rw [State.feed_spec, hfeed]
  rfl

/-- A status byte of a longer message begins the packet of its CIN and size (R124 to R128, R131). -/
theorem State.feed_start {cin : Nibble} {size : BitVec 2} (hb : isStatus b = true) (hshape : startShape b = (cin, size))
    (hsize : size ≠ 1) : s.feed c b = s.began c b cin size (inSysexAfterStart b) := by
  rw [State.feed_spec, CableFrame.feed_status hfilled hb, hshape, CableFrame.complete, if_neg hsize.symm]
  rfl

/-- A status byte that is a message by itself returns its packet at once (R129, R130). -/
theorem State.feed_single {cin : Nibble} (hb : isStatus b = true) (hshape : startShape b = (cin, 1))
    (hsysex : inSysexAfterStart b = false) : s.feed c b = s.single c b cin := by
  rw [State.feed_spec, CableFrame.feed_status hfilled hb, hshape, hsysex, CableFrame.complete, if_pos rfl]
  rfl

end

theorem isStatus_dataByte (v : BitVec 7) : isStatus (dataByte v) = false := by
  revert v; decide

/-- The high halves of the channel status bytes, each a CIN, with the sizes of their packets (R75 to R81). -/
def channelShapes : List (Nibble × BitVec 2) :=
  [(0x8, 3), (0x9, 3), (0xA, 3), (0xB, 3), (0xC, 2), (0xD, 2), (0xE, 3)]

theorem startShape_of_channelShapes {shape : Nibble × BitVec 2} (h : shape ∈ channelShapes) (n : Nibble) :
    isStatus (joinNibbles shape.1 n) = true ∧ startShape (joinNibbles shape.1 n) = shape ∧ shape.2 ≠ 1 ∧
      inSysexAfterStart (joinNibbles shape.1 n) = false := by
  revert n; revert shape; decide

/-- A channel status byte begins the packet of its CIN and size (R124, R125). -/
theorem State.feed_channelStatus {s : State} {c : Cable} (hfilled : (s.cable c).filled = 0)
    {shape : Nibble × BitVec 2} (h : shape ∈ channelShapes) (n : Nibble) :
    s.feed c (joinNibbles shape.1 n) = s.began c (joinNibbles shape.1 n) shape.1 shape.2 false := by
  obtain ⟨hstatus, hshape, hsize, hsysex⟩ := startShape_of_channelShapes h n
  rw [State.feed_start hfilled hstatus hshape hsize, hsysex]

theorem startShape_realtimeByte (r : BitVec 3) :
    isStatus (realtimeByte r) = true ∧ startShape (realtimeByte r) = (0xF, 1) ∧
      inSysexAfterStart (realtimeByte r) = false := by
  revert r; decide

/-- Settles O21: the class of each row's byte fixes the CIN and the size of its packet. -/
theorem byteRowsFed : Obligations.ByteRowsFed := by
  intro s c n v r hfilled
  have hchannel {cin : Nibble} {size : BitVec 2} (h : (cin, size) ∈ channelShapes) :
      s.feed c (joinNibbles cin n) = s.began c (joinNibbles cin n) cin size false :=
    State.feed_channelStatus hfilled h n
  have hstart {b : Byte} {cin : Nibble} {size : BitVec 2} :=
    State.feed_start (b := b) (cin := cin) (size := size) hfilled
  have hsingle {b : Byte} {cin : Nibble} := State.feed_single (b := b) (cin := cin) hfilled
  obtain ⟨hstatus, hshape, hsysex⟩ := startShape_realtimeByte r
  exact ⟨fun hopen => congrArg _ (State.feed_data hfilled (isStatus_dataByte v) hopen),
    congrArg _ (hchannel (by decide)), congrArg _ (hchannel (by decide)), congrArg _ (hchannel (by decide)),
    congrArg _ (hchannel (by decide)), congrArg _ (hchannel (by decide)), congrArg _ (hchannel (by decide)),
    congrArg _ (hchannel (by decide)), congrArg _ (hstart rfl rfl (by decide)), congrArg _ (hstart rfl rfl (by decide)),
    congrArg _ (hstart rfl rfl (by decide)), congrArg _ (hstart rfl rfl (by decide)), congrArg _ (hsingle rfl rfl rfl),
    congrArg _ (hsingle rfl rfl rfl), congrArg _ (hsingle rfl rfl rfl), congrArg _ (hsingle rfl rfl rfl),
    congrArg _ (hsingle hstatus hshape hsysex)⟩

/-! ### Packets unpacked (R141, R142) -/

theorem State.unpack_reserved (s : State) {p : Packet} (h : nbytes (Packet.cin p) = none) :
    s.unpack p = { s with
      framingErrCount := satInc s.framingErrCount, result := .unpacked none, events := [.reservedCin] } := by
  obtain ⟨-, hu⟩ | ⟨n, hn, -⟩ := Packet.unpack_cases p
  · rw [State.unpack, hu]; rfl
  · simp [h] at hn

theorem State.unpack_valid (s : State) {p : Packet} {n : Nat} (h : nbytes (Packet.cin p) = some n) :
    s.unpack p = { s with
      result := .unpacked (some ⟨Packet.cable p, Packet.cin p, Packet.validBytes p n⟩), events := [] } := by
  obtain ⟨hn, -⟩ | ⟨m, hm, hu⟩ := Packet.unpack_cases p
  · simp [h] at hn
  · obtain rfl : n = m := Option.some.inj (h.symm.trans hm)
    rw [State.unpack, hu]; rfl

/-- A packet row's valid bytes are the first `nbytes(CIN)` of its data bytes (R141). -/
theorem State.unpack_ofFields (s : State) {cin : Nibble} (cn : Cable) {d0 d1 d2 : Byte} {bytes : List Byte}
    (h : (nbytes cin).map (fun n => [d0, d1, d2].take n) = some bytes) :
    s.unpack (Packet.ofFields cin cn d0 d1 d2) =
      { s with result := .unpacked (some ⟨cn, cin, bytes⟩), events := [] } := by
  obtain ⟨n, hn, rfl⟩ := Option.map_eq_some_iff.mp h
  rw [State.unpack_valid s (n := n) (by rw [Packet.cin_ofFields, hn]), Packet.cable_ofFields, Packet.cin_ofFields]
  rfl

/-- Settles O23: the row's CIN decides. -/
theorem packetRowsUnpacked : Obligations.PacketRowsUnpacked := by
  intro s cn d0 d1 d2
  constructor
  · intro i hi
    simp only [List.mem_cons, List.not_mem_nil, or_false] at hi
    obtain rfl | rfl := hi <;>
      exact congrArg _ (s.unpack_reserved (by rw [Packet.cin_ofFields]; rfl))
  · intro x hx
    simp only [List.mem_cons, List.not_mem_nil, or_false] at hx
    obtain rfl | rfl | rfl | rfl | rfl | rfl | rfl | rfl | rfl | rfl | rfl | rfl | rfl | rfl := hx <;>
      exact congrArg _ (s.unpack_ofFields cn rfl)

end Sys2Proof.Machine

namespace Sys2Proof.Machine

/-! ### A byte appended while a message is in progress (R150 to R152) -/

/-- Storing a byte at an index of the array changes that byte and the length only. -/
theorem SysexBuffer.stored_put {S : SysexBuffer} (hwf : Memory.wf 2048 S.bytes = true) {i : Nat} (hi : i < 2048)
    (b : Byte) : S.Stored (S.put i b) i b := by
  have hread := SysexBuffer.read_put hwf i b
  exact ⟨S.put_length b hi, rfl, by rw [hread, if_pos rfl], fun k hk => by rw [hread, if_neg hk]⟩

section
variable {S : SysexBuffer} (hprogress : S.InProgress) (draw : Nat)
include hprogress

theorem SysexBuffer.append1_restart : S.append1 draw 0xF0 =
    ⟨SysexBuffer.put { S with droppedCount := 0 } 0 0xF0, .continuing, [.sysexCancelled]⟩ := by
  obtain ⟨hpos, hopen⟩ := hprogress
  rw [SysexBuffer.append1, if_neg (by simp [hopen]), if_neg hpos.ne', if_pos rfl]

theorem SysexBuffer.append1_eox (hlen : S.length.val ≤ 2047) : S.append1 draw 0xF7 =
    ⟨S.put S.length.val 0xF7, .complete (S.length.val + 1), []⟩ := by
  obtain ⟨hpos, hopen⟩ := hprogress
  rw [SysexBuffer.append1, if_neg (by simp [hopen]), if_neg hpos.ne', if_neg (by decide), if_pos rfl,
    S.eoxSlot_eq draw hlen]

theorem SysexBuffer.append1_store {b : Byte} (hroom : S.length.val ≤ 2046) (hstart : b ≠ 0xF0) (heox : b ≠ 0xF7) :
    S.append1 draw b = ⟨S.put S.length.val b, .continuing, []⟩ := by
  obtain ⟨hpos, hopen⟩ := hprogress
  rw [SysexBuffer.append1, if_neg (by simp [hopen]), if_neg hpos.ne', if_neg hstart, if_neg heox,
    if_pos (by simp only [Config.sysexCapacity]; omega)]

end

section
variable {s : State} {c : Cable} (hprogress : (s.sysex c).InProgress) (hwf : Memory.wf 2048 (s.sysex c).bytes = true)
include hprogress hwf

/-- 0xF0 begins the message anew (R150). -/
theorem State.append1_restart : ∃ T, SysexBuffer.Stored { s.sysex c with droppedCount := 0 } T 0 0xF0 ∧
    s.append1 c 0xF0 = { s.setSysex c T with result := .accum .continuing, events := [.sysexCancelled] } := by
  refine ⟨_, SysexBuffer.stored_put (S := { s.sysex c with droppedCount := 0 }) hwf (by decide) 0xF0, ?_⟩
  rw [State.append1, SysexBuffer.append1_restart hprogress]
  rfl

/-- 0xF7 completes the message (R151). -/
theorem State.append1_eox (hlen : (s.sysex c).length.val ≤ 2047) :
    ∃ T, (s.sysex c).Stored T (s.sysex c).length.val 0xF7 ∧
      s.append1 c 0xF7 = { s.setSysex c T with result := .accum (.complete T.length.val), events := [] } := by
  have hlt : (s.sysex c).length.val < 2048 := Nat.lt_succ_of_le hlen
  refine ⟨_, SysexBuffer.stored_put hwf hlt 0xF7, ?_⟩
  rw [State.append1, SysexBuffer.append1_eox hprogress s.draws hlen, SysexBuffer.put_length _ _ hlt]
  rfl

/-- Any other byte is stored behind the message while there is room (R152). -/
theorem State.append1_store {b : Byte} (hroom : (s.sysex c).length.val ≤ 2046) (hstart : b ≠ 0xF0)
    (heox : b ≠ 0xF7) : ∃ T, (s.sysex c).Stored T (s.sysex c).length.val b ∧
      s.append1 c b = { s.setSysex c T with result := .accum .continuing, events := [] } := by
  refine ⟨_, SysexBuffer.stored_put hwf (by omega) b, ?_⟩
  rw [State.append1, SysexBuffer.append1_store hprogress s.draws hroom hstart heox]
  rfl

end

/-- Settles O35: the row's byte is 0xF0, 0xF7 or neither. -/
theorem byteRowsAppended : Obligations.ByteRowsAppended := by
  intro s c n v r hprogress hroom hwf
  have hchannel {h : Nibble} (hh : h ≠ 0xF) : joinNibbles h n ≠ 0xF0 ∧ joinNibbles h n ≠ 0xF7 := by
    revert h n; decide
  have hdata : dataByte v ≠ 0xF0 ∧ dataByte v ≠ 0xF7 := by revert v; decide
  have hrealtime : realtimeByte r ≠ 0xF0 ∧ realtimeByte r ≠ 0xF7 := by revert r; decide
  have hstore {i : Instr} {b : Byte} (hexec : exec i s = .next (s.append1 c b)) (hb : b ≠ 0xF0 ∧ b ≠ 0xF7) :
      ∃ T, (s.sysex c).Stored T (s.sysex c).length.val b ∧
        exec i s = .next { s.setSysex c T with result := .accum .continuing, events := [] } := by
    obtain ⟨T, hT, happend⟩ := State.append1_store hprogress hwf hroom hb.1 hb.2
    exact ⟨T, hT, hexec.trans (congrArg _ happend)⟩
  refine ⟨?_, ?_, ?_⟩
  · simp only [List.forall_mem_cons]
    exact ⟨hstore rfl hdata, hstore rfl (hchannel (by decide)), hstore rfl (hchannel (by decide)),
      hstore rfl (hchannel (by decide)), hstore rfl (hchannel (by decide)), hstore rfl (hchannel (by decide)),
      hstore rfl (hchannel (by decide)), hstore rfl (hchannel (by decide)), hstore rfl (by decide),
      hstore rfl (by decide), hstore rfl (by decide), hstore rfl (by decide), hstore rfl (by decide),
      hstore rfl (by decide), hstore rfl hrealtime, nofun⟩
  · obtain ⟨T, hT, happend⟩ := State.append1_restart hprogress hwf
    exact ⟨T, hT, congrArg _ happend⟩
  · obtain ⟨T, hT, happend⟩ := State.append1_eox hprogress hwf (by omega)
    exact ⟨T, hT, congrArg _ happend⟩

/-! ### Frames written (R173, R174) -/

/-- The converse of `enqueue_of_writeCmd_next`: a frame that has an encoding is given to the queue. -/
theorem State.writeCmd_eq_enqueue (s : State) (header : Byte) {payload : List Byte} (hlen : payload.length ≤ 255) :
    s.writeCmd header payload = .next (s.enqueue ⟨header, payload⟩) := by
  obtain ⟨-, hw⟩ | ⟨hlong, -⟩ := s.writeCmd_cases header payload
  · exact hw
  · omega

/-- A frame enters the queue whole while there is room (R173). -/
theorem State.writeCmd_fits {s : State} (header : Byte) {payload : List Byte} (hlen : payload.length ≤ 255)
    (hfits : s.txq.length + (2 + payload.length) ≤ Config.txqCapacity) : s.writeCmd header payload =
      .next { s with
        txq := s.txq ++ (header :: BitVec.ofNat 8 payload.length :: payload), result := .write .ok, events := [] } := by
  have hadmits : Config.txqAdmits (s.txq.length + (encodeFrame header payload).length) = true := by
    rwa [Config.txqAdmits_iff, encodeFrame_length, Nat.add_comm payload.length]
  have hwrite : writeFrame Config.txqAdmits s.txq header payload = ⟨s.txq ++ encodeFrame header payload, .ok, []⟩ :=
    if_pos hadmits
  rw [s.writeCmd_eq_enqueue header hlen]
  simp only [State.enqueue, hwrite]
  rfl

/-- A frame without room is dropped whole and counted (R174). -/
theorem State.writeCmd_dropped {s : State} (header : Byte) {payload : List Byte} (hlen : payload.length ≤ 255)
    (hfull : Config.txqCapacity < s.txq.length + (2 + payload.length)) : s.writeCmd header payload =
      .next { s with
        txDropCount := satInc s.txDropCount, result := .write .dropped, events := [.txQueueFull] } := by
  have hadmits : ¬ Config.txqAdmits (s.txq.length + (encodeFrame header payload).length) = true := by
    rwa [Config.txqAdmits_iff, encodeFrame_length, Nat.add_comm payload.length, not_le]
  have hwrite : writeFrame Config.txqAdmits s.txq header payload = ⟨s.txq, .dropped, [.txQueueFull]⟩ :=
    if_neg hadmits
  rw [s.writeCmd_eq_enqueue header hlen]
  simp only [State.enqueue, hwrite]
  rfl

/-- Settles O42: each row sends the frame of its own header. -/
theorem frameRowsWritten : Obligations.FrameRowsWritten := by
  intro s payload hlen x hx
  have hsent : sentFrame x.1 = some ⟨x.2, payload⟩ := by
    simp only [List.mem_cons, List.not_mem_nil, or_false] at hx
    obtain rfl | rfl | rfl | rfl | rfl | rfl | rfl | rfl | rfl | rfl | rfl | rfl | rfl | rfl | rfl | rfl | rfl | rfl |
      rfl := hx <;> rfl
  rw [exec_of_sentFrame hsent]
  exact ⟨State.writeCmd_fits x.2 hlen, State.writeCmd_dropped x.2 hlen⟩

/-! ### The payload sizes of the headers (R114) -/

/-- Settles O52: a header fixes the branch of the test, and an unassigned one fails every membership. -/
theorem payloadSizes : Obligations.PayloadSizes := by
  intro header n
  refine ⟨fun h => ?_, fun h => h ▸ decide_eq_true_iff, fun h => h ▸ rfl, fun h => h ▸ decide_eq_true_iff,
    fun h => h ▸ decide_eq_true_iff, fun h => h ▸ decide_eq_true_iff, fun h => ?_, fun h => ?_, fun h => ?_⟩
  · rw [payloadLenOk, if_pos h, decide_eq_true_iff]
  · simp only [List.mem_cons, List.not_mem_nil, or_false] at h
    obtain rfl | rfl | rfl := h <;> exact decide_eq_true_iff
  · simp only [List.mem_cons, List.not_mem_nil, or_false] at h
    obtain rfl | rfl := h <;> exact decide_eq_true_iff
  · simp only [Config.assignedHeaders, List.mem_cons, List.not_mem_nil, or_false, not_or] at h
    simp only [payloadLenOk, List.mem_cons, List.not_mem_nil, h, or_false, if_false]

end Sys2Proof.Machine

/-! PROOFS. The feed family: `PC.FEED` arm by arm, and the round trip of a well-formed byte stream. -/

namespace Sys2Proof.Machine

/-! ### What the bytes are (R73 to R91) -/

theorem isStatus_iff (b : Byte) : isStatus b = true ↔ 0x80 ≤ b := by
  revert b; decide +kernel

theorem isStatus_eq_false_iff (b : Byte) : isStatus b = false ↔ IsData b := by
  revert b; decide +kernel

/-- A status byte that opens no SysEx, with the CIN and the size of its packet (R75 to R91). -/
abbrev ShortStatus (b : Byte) (cin : Nibble) (size : BitVec 2) : Prop :=
  isStatus b = true ∧ startShape b = (cin, size) ∧ inSysexAfterStart b = false

theorem shortStatus_voice3 {b : Byte} (h : (0x80 ≤ b ∧ b ≤ 0xBF) ∨ (0xE0 ≤ b ∧ b ≤ 0xEF)) :
    ShortStatus b (hiNibble b) 3 := by
  revert b; decide +kernel

theorem shortStatus_voice2 {b : Byte} (h : 0xC0 ≤ b ∧ b ≤ 0xDF) : ShortStatus b (hiNibble b) 2 := by
  revert b; decide +kernel

theorem shortStatus_common2 {b : Byte} (h : b = 0xF1 ∨ b = 0xF3) : ShortStatus b 0x2 2 := by
  obtain rfl | rfl := h <;> decide

theorem shortStatus_common3 : ShortStatus 0xF2 0x3 3 := by decide

theorem shortStatus_eox : ShortStatus 0xF7 0x5 1 := by decide

theorem shortStatus_single {b : Byte} (h : b = 0xF4 ∨ b = 0xF5 ∨ b = 0xF6 ∨ 0xF8 ≤ b) : ShortStatus b 0xF 1 := by
  revert b; decide +kernel

/-! ### The arms of `PC.FEED` on a cable's frame (R122, R132 to R135)

`CableFrame.feed_status` is the rule of a status byte at `filled == 0`; these are the others. -/

/-- The packet that an EOX inside a SysEx packet ends: the EOX stored, and the CIN of a SysEx end (R133). -/
def CableFrame.eoxPacket (F : CableFrame) (c : Cable) : Packet :=
  { Packet.store F.packet F.filled 0xF7 with b0 := packetHead c (0x4 + (F.filled.setWidth 4 + 1)) }

theorem CableFrame.eoxPacket_of_one {F : CableFrame} (h : F.filled = 1) (c : Cable) :
    F.eoxPacket c = { F.packet with b0 := joinNibbles c 0x6, b2 := 0xF7 } := by
  rw [CableFrame.eoxPacket, h]; rfl

theorem CableFrame.eoxPacket_of_two {F : CableFrame} (h : F.filled = 2) (c : Cable) :
    F.eoxPacket c = { F.packet with b0 := joinNibbles c 0x7, b3 := 0xF7 } := by
  rw [CableFrame.eoxPacket, h]; rfl

/-- What `START` does with a status byte does not depend on the events before it, which it keeps. -/
theorem CableFrame.first_of_status {b : Byte} (hb : isStatus b = true) (F : CableFrame) (c : Cable) (es : List Event) :
    F.first c b es = ⟨(F.first c b []).now, (F.first c b []).result, es⟩ := by
  simp only [CableFrame.first, if_pos hb, CableFrame.complete]
  split <;> rfl

section
variable {F : CableFrame} {b : Byte} (c : Cable)

/-- R122. -/
theorem CableFrame.feed_stray (hfilled : F.filled = 0) (hb : isStatus b = false) (hsysex : F.inSysex = false) :
    F.feed c b = ⟨F, none, [.strayData]⟩ := by
  simp [CableFrame.feed, CableFrame.first, hfilled, hb, hsysex]

/-- R123. -/
theorem CableFrame.feed_continue (hfilled : F.filled = 0) (hb : isStatus b = false) (hsysex : F.inSysex = true) :
    F.feed c b = ⟨F.start c b 0x4 3, none, []⟩ := by
  simp [CableFrame.feed, CableFrame.first, CableFrame.complete, CableFrame.start, hfilled, hb, hsysex]

/-- R135. -/
theorem CableFrame.feed_overflow (hfilled : F.filled ≠ 0) (hover : F.expectedSize ≤ F.filled ∨ F.filled = 3) :
    F.feed c b = ⟨{ F with filled := 0 }, none, [.packetOverflow]⟩ := by
  have hguard : F.expectedSize ≤ F.filled ∨ 2 < F.filled := by bv_omega
  rw [CableFrame.feed, if_neg hfilled, if_pos hguard]

/-- A packet that lacks bytes passes the overflow guard. -/
theorem CableFrame.not_overflow (hlt : F.filled < F.expectedSize) : ¬(F.expectedSize ≤ F.filled ∨ 2 < F.filled) := by
  bv_omega

variable (hfilled : F.filled ≠ 0) (hlt : F.filled < F.expectedSize)
include hfilled hlt

/-- R132. -/
theorem CableFrame.feed_store (hb : isStatus b = false) : F.feed c b =
    CableFrame.complete { F with packet := Packet.store F.packet F.filled b, filled := F.filled + 1 } [] := by
  have heox : ¬(b = 0xF7 ∧ Packet.cin F.packet = 0x4) := by
    rintro ⟨rfl, -⟩
    exact absurd hb (by decide)
  rw [CableFrame.feed, if_neg hfilled, if_neg (CableFrame.not_overflow hlt), if_neg heox, hb]
  rfl

/-- R133. -/
theorem CableFrame.feed_eox (hcin : Packet.cin F.packet = 0x4) : F.feed c 0xF7 =
    ⟨{ F with packet := F.eoxPacket c, filled := 0, inSysex := false }, some (F.eoxPacket c), []⟩ := by
  rw [CableFrame.feed, if_neg hfilled, if_neg (CableFrame.not_overflow hlt), if_pos ⟨rfl, hcin⟩]
  rfl

/-- R134. -/
theorem CableFrame.feed_restart (hb : isStatus b = true) (heox : ¬(b = 0xF7 ∧ Packet.cin F.packet = 0x4)) :
    F.feed c b = CableFrame.first { F with filled := 0, inSysex := false } c b [.midPacketStatus] := by
  rw [CableFrame.feed, if_neg hfilled, if_neg (CableFrame.not_overflow hlt), if_neg heox, if_pos hb]

end

/-! ### `PC.FEED` at `filled == 0` (R122 to R130) -/

theorem exec_pcFeed_of_feed {s : State} {c : Cable} {b : Byte} {did : Did CableFrame (Option Packet)}
    (h : (s.cable c).feed c b = did) :
    exec (.pcFeed c b) s = .next ((s.setCable c did.now).finish (.packet did.result) did.events) :=
  h ▸ rfl

/-- Settles O11: the frame is written back as it was, and the one event increments the counter. -/
theorem feedStrayData : Obligations.FeedStrayData := by
  intro s c b hfilled hb hsysex
  rw [exec_pcFeed_of_feed (CableFrame.feed_stray c hfilled ((isStatus_eq_false_iff b).mpr hb) hsysex),
    State.setCable_self]
  rfl

/-- Settles O12, by the rule of a data byte while a SysEx is open. -/
theorem feedContinuesSysex : Obligations.FeedContinuesSysex :=
  fun _ _ b hfilled hb hsysex => congrArg _ (State.feed_data hfilled ((isStatus_eq_false_iff b).mpr hb) hsysex)

section
variable {s : State} {c : Cable} {b : Byte} (hfilled : (s.cable c).filled = 0) {cin : Nibble}
include hfilled

theorem exec_pcFeed_of_shortStatus {size : BitVec 2} (h : ShortStatus b cin size) (hsize : size ≠ 1) :
    exec (.pcFeed c b) s = .next (s.began c b cin size false) := by
  obtain ⟨hb, hshape, hsysex⟩ := h
  rw [← hsysex]
  exact congrArg _ (State.feed_start hfilled hb hshape hsize)

theorem exec_pcFeed_of_shortStatus_one (h : ShortStatus b cin 1) :
    exec (.pcFeed c b) s = .next (s.single c b cin) := by
  obtain ⟨hb, hshape, hsysex⟩ := h
  exact congrArg _ (State.feed_single hfilled hb hshape hsysex)

end

/-- Settles O13: the class of the status byte fixes the CIN and the size, and 0xF0 alone opens a SysEx. -/
theorem feedStartsAPacket : Obligations.FeedStartsAPacket := by
  intro s c b hfilled
  refine ⟨fun h => ?_, fun h => ?_, fun h => ?_, fun h => ?_, fun h => ?_⟩
  · exact exec_pcFeed_of_shortStatus hfilled (shortStatus_voice3 h) (by decide)
  · exact exec_pcFeed_of_shortStatus hfilled (shortStatus_voice2 h) (by decide)
  · subst h
    exact congrArg _ (State.feed_start hfilled rfl rfl (by decide))
  · exact exec_pcFeed_of_shortStatus hfilled (shortStatus_common2 h) (by decide)
  · exact exec_pcFeed_of_shortStatus hfilled (h ▸ shortStatus_common3) (by decide)

/-- Settles O14: a packet of size 1 has all its bytes with the first. -/
theorem feedOneByteMessage : Obligations.FeedOneByteMessage := by
  intro s c b hfilled
  refine ⟨fun h => ?_, fun h => ?_⟩
  · exact exec_pcFeed_of_shortStatus_one hfilled (shortStatus_single h)
  · exact exec_pcFeed_of_shortStatus_one hfilled (h ▸ shortStatus_eox)

/-! ### `PC.FEED` inside a packet (R132 to R135) -/

/-- Settles O15: the byte is stored behind those of the packet, and `FINISH` tests whether it was the last. -/
theorem feedStoresADataByte : Obligations.FeedStoresADataByte := by
  rintro s c F b rfl hfilled hlt - hb
  have hfeed := exec_pcFeed_of_feed (CableFrame.feed_store c hfilled hlt ((isStatus_eq_false_iff b).mpr hb))
  refine ⟨Packet.store (s.cable c).packet (s.cable c).filled b, fun h => by rw [h]; rfl, fun h => by rw [h]; rfl,
    fun hlast => ?_, fun hmore => ?_⟩
  · rw [hfeed, CableFrame.complete, if_pos hlast]
    rfl
  · rw [hfeed, CableFrame.complete, if_neg hmore]
    rfl

/-- Settles O16: the CIN is 0x4 plus the number of bytes, 2 or 3. -/
theorem feedEoxEndsASysexPacket : Obligations.FeedEoxEndsASysexPacket := by
  rintro s c F rfl hfilled hlt hcin
  exact ⟨_, fun h => CableFrame.eoxPacket_of_one h c, fun h => CableFrame.eoxPacket_of_two h c,
    exec_pcFeed_of_feed (CableFrame.feed_eox c hfilled hlt hcin)⟩

/-- Settles O17: in both runs `START` works on the frame with `filled` and `in_sysex` 0, and a status byte's outcome
there differs by the event before it only. -/
theorem feedStatusInsideAPacket : Obligations.FeedStatusInsideAPacket := by
  rintro s c F b rfl hfilled hlt hb heox
  have hstatus := (isStatus_iff b).mpr hb
  have hclean : (s.setCable c { s.cable c with filled := 0, inSysex := false }).cable c =
      { s.cable c with filled := 0, inSysex := false } := s.setCable_cable c _
  have hfirst := CableFrame.first_of_status hstatus { s.cable c with filled := 0, inSysex := false } c
  refine ⟨_, exec_pcFeed_of_feed ((congrArg (·.feed c b) hclean).trans (hfirst [])), rfl, ?_⟩
  rw [exec_pcFeed_of_feed ((CableFrame.feed_restart c hfilled hlt hstatus heox).trans (hfirst _)),
    State.setCable_setCable]
  rfl

/-- Settles O18: the guard stands before every test of the byte. -/
theorem feedOverflowGuard : Obligations.FeedOverflowGuard := by
  rintro s c F b rfl hfilled hover
  exact exec_pcFeed_of_feed (CableFrame.feed_overflow c hfilled hover)

end Sys2Proof.Machine

namespace Sys2Proof.Machine

/-! ### A list of bytes fed to one cable

`CableFrame.feedAll` is a run of `PC.FEED` seen from the cable's frame, to which `runOps_pcFeed` ties it. -/

/-- Bytes given to `PC.FEED` in order: the frame after them, the packets returned and the events. -/
def CableFrame.feedAll (c : Cable) : CableFrame → List Byte → Did CableFrame (List Packet)
  | F, [] => ⟨F, [], []⟩
  | F, b :: bs =>
    ⟨(CableFrame.feedAll c (F.feed c b).now bs).now,
      (F.feed c b).result.toList ++ (CableFrame.feedAll c (F.feed c b).now bs).result,
      (F.feed c b).events ++ (CableFrame.feedAll c (F.feed c b).now bs).events⟩

/-- What an operation returned goes in front of the packets of the others. -/
theorem packetsOf_packet_cons (r : Option Packet) (es : List Event) (seen : List Seen) :
    packetsOf ((.packet r, es) :: seen) = r.toList ++ packetsOf seen := by
  cases r <;> rfl

theorem runOps_pcFeed (c : Cable) (bytes : List Byte) (s : State) :
    ∃ seen t, runOps (bytes.map (Instr.pcFeed c)) s = some (seen, t) ∧
      seen.flatMap Prod.snd = ((s.cable c).feedAll c bytes).events ∧
      packetsOf seen = ((s.cable c).feedAll c bytes).result ∧ t.cable c = ((s.cable c).feedAll c bytes).now := by
  induction bytes generalizing s with
  | nil => exact ⟨[], s, rfl, rfl, rfl, rfl⟩
  | cons b bytes ih =>
    obtain ⟨seen, t, hrun, hevents, hpackets, hnow⟩ := ih (s.feed c b)
    have hcable : (s.feed c b).cable c = ((s.cable c).feed c b).now := s.setCable_cable c _
    rw [hcable] at hevents hpackets hnow
    refine ⟨_, t, runOps_cons_of_next rfl hrun, ?_, ?_, hnow⟩
    · exact congrArg (((s.cable c).feed c b).events ++ ·) hevents
    · exact (packetsOf_packet_cons _ _ seen).trans (congrArg (((s.cable c).feed c b).result.toList ++ ·) hpackets)

/-! ### No byte is lost or added without an event (R136, R141) -/

/-- The MIDI bytes that a frame's packet holds (R13, R14). -/
def CableFrame.pending (F : CableFrame) : List Byte := Packet.validBytes F.packet F.filled.toNat

theorem CableFrame.pending_of_empty {F : CableFrame} (h : F.filled = 0) : F.pending = [] := by
  rw [CableFrame.pending, h]; rfl

/-- A byte stored behind the one or two that a packet holds. -/
theorem Packet.validBytes_store (p : Packet) {filled : BitVec 2} (h : filled = 1 ∨ filled = 2) (b : Byte) :
    Packet.validBytes (Packet.store p filled b) (filled.toNat + 1) = Packet.validBytes p filled.toNat ++ [b] := by
  obtain rfl | rfl := h <;> rfl

/-- The bytes have all come back, in order: out of the packets returned, each unpacked with cable `c`, or they are still
held by the frame. -/
def Conserves (c : Cable) (packets : List Packet) (F : CableFrame) (bytes : List Byte) : Prop :=
  packets.flatMap unpackedBytes ++ F.pending = bytes ∧ ∀ p ∈ packets, ∃ u, Packet.unpack p = some u ∧ u.cable = c

theorem conserves_held {c : Cable} {F : CableFrame} {bytes : List Byte} (h : F.pending = bytes) :
    Conserves c [] F bytes := ⟨h, nofun⟩

/-- A packet whose CIN counts its bytes gives them all back. -/
theorem conserves_returned {c : Cable} {F : CableFrame} {p : Packet} {n : Nat} (hfilled : F.filled = 0)
    (hcable : Packet.cable p = c) (hn : nbytes (Packet.cin p) = some n) :
    Conserves c [p] F (Packet.validBytes p n) := by
  have hunpack : Packet.unpack p = some ⟨c, Packet.cin p, Packet.validBytes p n⟩ := by
    rw [Packet.unpack, hn, hcable]
  refine ⟨?_, List.forall_mem_singleton.mpr ⟨_, hunpack, rfl⟩⟩
  rw [CableFrame.pending_of_empty hfilled, List.append_nil, List.flatMap_singleton, unpackedBytes, hunpack]

/-- `FINISH` conserves the bytes of a packet whose CIN counts as many as it expects. -/
theorem CableFrame.complete_conserves {F : CableFrame} {c : Cable} (hcable : Packet.cable F.packet = c)
    (hn : nbytes (Packet.cin F.packet) = some F.expectedSize.toNat) (es : List Event) :
    Conserves c (F.complete es).result.toList (F.complete es).now F.pending := by
  obtain ⟨hfull, h⟩ | ⟨-, h⟩ := F.complete_cases es <;> rw [h]
  · exact conserves_returned rfl hcable (hfull ▸ hn)
  · exact conserves_held rfl

/-- The CIN that a status byte gives its packet counts the bytes that the packet expects (R56, R75 to R91). -/
theorem nbytes_startShape {b : Byte} (h : isStatus b = true) :
    nbytes (startShape b).1 = some (startShape b).2.toNat := by
  revert b; decide +kernel

theorem CableFrame.first_conserves {F : CableFrame} {c : Cable} {b : Byte} (hquiet : (F.first c b []).events = []) :
    Conserves c (F.first c b []).result.toList (F.first c b []).now [b] := by
  obtain ⟨hb, h⟩ | ⟨-, -, h⟩ | ⟨-, -, h⟩ := F.first_cases c b []
  · rw [h]
    exact CableFrame.complete_conserves (CableFrame.cable_start _ c b _ _)
      (by rw [CableFrame.cin_start]; exact nbytes_startShape hb) []
  · rw [h]
    exact conserves_held rfl
  · simp [h] at hquiet

/-- The packet that an EOX ends gives back the bytes held and the EOX: its CIN 0x6 or 0x7 counts them (R133). -/
theorem CableFrame.eoxPacket_conserves {F G : CableFrame} (hfilled : F.filled = 1 ∨ F.filled = 2) (hG : G.filled = 0)
    (c : Cable) : Conserves c [F.eoxPacket c] G (F.pending ++ [0xF7]) := by
  have hn : nbytes (Packet.cin (F.eoxPacket c)) = some (F.filled.toNat + 1) := by
    rw [Packet.cin, CableFrame.eoxPacket, loNibble_packetHead]
    obtain h | h := hfilled <;> rw [h] <;> rfl
  rw [CableFrame.pending, ← Packet.validBytes_store _ hfilled]
  exact conserves_returned hG (hiNibble_packetHead c _) hn

theorem CableFrame.feed_conserves {F : CableFrame} {c : Cable} (hF : F.Inv c) {b : Byte}
    (hquiet : (F.feed c b).events = []) :
    Conserves c (F.feed c b).result.toList (F.feed c b).now (F.pending ++ [b]) := by
  obtain ⟨hempty, h⟩ | ⟨-, -, h⟩ | ⟨hfilled, hlt, ⟨rfl, -, p, rfl, h⟩ | ⟨-, hb, h⟩ | ⟨-, h⟩⟩ := F.feed_cases c b
  · rw [h] at hquiet ⊢
    rw [CableFrame.pending_of_empty hempty]
    exact CableFrame.first_conserves hquiet
  · simp [h] at hquiet
  · rw [h]
    exact CableFrame.eoxPacket_conserves hfilled rfl c
  · rw [h, CableFrame.first_of_status hb] at hquiet
    exact absurd hquiet (List.cons_ne_nil _ _)
  · obtain ⟨-, hbegun⟩ := hF
    obtain ⟨-, -, hcable, -, hn, -⟩ := hbegun (by bv_omega)
    have hheld : CableFrame.pending { F with packet := Packet.store F.packet F.filled b, filled := F.filled + 1 } =
        F.pending ++ [b] := by
      have hsucc : (F.filled + 1).toNat = F.filled.toNat + 1 := by bv_omega
      rw [CableFrame.pending, hsucc, Packet.validBytes_store F.packet hfilled]
      rfl
    rw [h, ← hheld]
    refine CableFrame.complete_conserves ?_ ?_ []
    · rwa [Packet.cable, Packet.store_b0]
    · rwa [Packet.cin, Packet.store_b0]

/-- Along a run: what was held before it and the bytes fed are given back or still held. -/
theorem CableFrame.feedAll_conserves {c : Cable} {bytes : List Byte} {F : CableFrame} (hF : F.Inv c)
    (hquiet : (F.feedAll c bytes).events = []) :
    Conserves c (F.feedAll c bytes).result (F.feedAll c bytes).now (F.pending ++ bytes) := by
  induction bytes generalizing F with
  | nil => exact conserves_held (List.append_nil _).symm
  | cons b bytes ih =>
    obtain ⟨hfirst, hrest⟩ := List.append_eq_nil_iff.mp hquiet
    obtain ⟨hbytes, hcable⟩ := CableFrame.feed_conserves hF hfirst
    obtain ⟨hbytes', hcable'⟩ := ih (F.feed_inv c b hF) hrest
    refine ⟨?_, List.forall_mem_append.mpr ⟨hcable, hcable'⟩⟩
    rw [List.append_cons, ← hbytes, List.append_assoc, ← hbytes', ← List.append_assoc]
    exact congrArg (· ++ _) List.flatMap_append

/-! ### A well-formed stream emits no event (R138) -/

/-- No packet is begun and no SysEx is open. -/
abbrev CableFrame.Clean (F : CableFrame) : Prop := F.filled = 0 ∧ F.inSysex = false

/-- Given to `PC.FEED` in order, the bytes emit no event and leave the frame clean. -/
def CableFrame.Settles (F : CableFrame) (c : Cable) (bytes : List Byte) : Prop :=
  (F.feedAll c bytes).events = [] ∧ (F.feedAll c bytes).now.Clean

section
variable {F : CableFrame} {c : Cable}

theorem CableFrame.settles_nil (h : F.Clean) : F.Settles c [] := ⟨rfl, h⟩

theorem CableFrame.settles_cons {b : Byte} {bytes : List Byte} (hquiet : (F.feed c b).events = [])
    (hrest : (F.feed c b).now.Settles c bytes) : F.Settles c (b :: bytes) :=
  ⟨List.append_eq_nil_iff.mpr ⟨hquiet, hrest.1⟩, hrest.2⟩

theorem CableFrame.settles_append {xs ys : List Byte} (hxs : F.Settles c xs)
    (hys : ∀ G : CableFrame, G.Clean → G.Settles c ys) : F.Settles c (xs ++ ys) := by
  induction xs generalizing F with
  | nil => exact hys F hxs.2
  | cons x xs ih =>
    obtain ⟨hquiet, hclean⟩ := hxs
    obtain ⟨hfirst, hrest⟩ := List.append_eq_nil_iff.mp hquiet
    exact CableFrame.settles_cons hfirst (ih ⟨hrest, hclean⟩)

/-- The data bytes that a packet outside a SysEx lacks settle it, after the `FINISH` of the bytes it has. -/
theorem CableFrame.complete_settles {bytes : List Byte} (hdata : ∀ b ∈ bytes, IsData b)
    (hfilled : F.filled ≠ 0) (hsysex : F.inSysex = false)
    (hlen : F.expectedSize.toNat = F.filled.toNat + bytes.length) : (F.complete []).now.Settles c bytes := by
  induction bytes generalizing F with
  | nil =>
    have hfull : F.filled = F.expectedSize := BitVec.eq_of_toNat_eq hlen.symm
    rw [CableFrame.complete, if_pos hfull]
    exact CableFrame.settles_nil ⟨rfl, hsysex⟩
  | cons b bytes ih =>
    obtain ⟨hb, hdata⟩ := List.forall_mem_cons.mp hdata
    rw [List.length_cons] at hlen
    have hlt : F.filled < F.expectedSize := by bv_omega
    have hmore : F.filled ≠ F.expectedSize := by bv_omega
    rw [CableFrame.complete, if_neg hmore]
    have hfeed := CableFrame.feed_store c hfilled hlt ((isStatus_eq_false_iff b).mpr hb)
    refine CableFrame.settles_cons (by rw [hfeed, CableFrame.complete_events]) ?_
    rw [hfeed]
    exact ih hdata (by bv_omega) hsysex (by bv_omega)

/-- A message that opens no SysEx: a status byte and as many data bytes as its packet lacks. -/
theorem CableFrame.settles_short {b : Byte} {cin : Nibble} {size : BitVec 2} {bytes : List Byte} (hF : F.Clean)
    (hb : ShortStatus b cin size) (hdata : ∀ d ∈ bytes, IsData d) (hlen : size.toNat = 1 + bytes.length) :
    F.Settles c (b :: bytes) := by
  obtain ⟨hstatus, hshape, hsysex⟩ := hb
  have hfeed := CableFrame.feed_status hF.1 hstatus c
  rw [hshape] at hfeed
  refine CableFrame.settles_cons (by rw [hfeed, CableFrame.complete_events]) ?_
  rw [hfeed]
  exact CableFrame.complete_settles hdata (show (1 : BitVec 2) ≠ 0 by decide) hsysex hlen

/-- A packet begun inside an open SysEx lacks bytes and has CIN 0x4 (R17). -/
theorem CableFrame.Inv.unfinished_of_inSysex (hF : F.Inv c) (hopen : F.inSysex = true) (hfilled : F.filled ≠ 0) :
    F.filled < F.expectedSize ∧ Packet.cin F.packet = 0x4 := by
  obtain ⟨-, hbegun⟩ := hF
  obtain ⟨-, hlt, -, -, -, -, -, hcin⟩ := hbegun hfilled
  exact ⟨hlt, hcin.mpr hopen⟩

/-- A data byte in an open SysEx begins a packet or goes into the one begun, and the SysEx stays open (R123, R132). -/
theorem CableFrame.feed_data_of_inSysex (hF : F.Inv c) (hopen : F.inSysex = true) {b : Byte}
    (hb : isStatus b = false) : (F.feed c b).events = [] ∧ (F.feed c b).now.inSysex = true := by
  by_cases hfilled : F.filled = 0
  · rw [CableFrame.feed_continue c hfilled hb hopen]
    exact ⟨rfl, hopen⟩
  · obtain ⟨hlt, -⟩ := hF.unfinished_of_inSysex hopen hfilled
    rw [CableFrame.feed_store c hfilled hlt hb, CableFrame.complete]
    split <;> exact ⟨rfl, hopen⟩

/-- An EOX in an open SysEx is a packet by itself or ends the one begun, and leaves the frame clean (R130, R133). -/
theorem CableFrame.feed_eox_of_inSysex (hF : F.Inv c) (hopen : F.inSysex = true) :
    (F.feed c 0xF7).events = [] ∧ (F.feed c 0xF7).now.Clean := by
  by_cases hfilled : F.filled = 0
  · rw [CableFrame.feed_status hfilled rfl]
    exact ⟨rfl, rfl, rfl⟩
  · obtain ⟨hlt, hcin⟩ := hF.unfinished_of_inSysex hopen hfilled
    rw [CableFrame.feed_eox c hfilled hlt hcin]
    exact ⟨rfl, rfl, rfl⟩

/-- While a SysEx is open, data bytes keep it open and an EOX settles it. -/
theorem CableFrame.settles_sysex {body : List Byte} (hF : F.Inv c) (hopen : F.inSysex = true)
    (hbody : ∀ b ∈ body, IsData b) : F.Settles c (body ++ [0xF7]) := by
  induction body generalizing F with
  | nil =>
    obtain ⟨hquiet, hclean⟩ := CableFrame.feed_eox_of_inSysex hF hopen
    exact CableFrame.settles_cons hquiet (CableFrame.settles_nil hclean)
  | cons b body ih =>
    obtain ⟨hb, hbody⟩ := List.forall_mem_cons.mp hbody
    obtain ⟨hquiet, hopen'⟩ := CableFrame.feed_data_of_inSysex hF hopen ((isStatus_eq_false_iff b).mpr hb)
    exact CableFrame.settles_cons hquiet (ih (F.feed_inv c b hF) hopen' hbody)

theorem CableFrame.settles_message {m : List Byte} (hm : MessageForm m) (hF : F.Clean) : F.Settles c m := by
  cases hm with
  | voice3 s a b hs ha hb => exact CableFrame.settles_short hF (shortStatus_voice3 hs) (by simpa using ⟨ha, hb⟩) rfl
  | voice2 s a hlo hhi ha => exact CableFrame.settles_short hF (shortStatus_voice2 ⟨hlo, hhi⟩) (by simpa using ha) rfl
  | common2 s a hs ha => exact CableFrame.settles_short hF (shortStatus_common2 hs) (by simpa using ha) rfl
  | common3 a b ha hb => exact CableFrame.settles_short hF shortStatus_common3 (by simpa using ⟨ha, hb⟩) rfl
  | single s hs => exact CableFrame.settles_short hF (shortStatus_single hs) nofun rfl
  | sysex body hbody =>
    have hfeed := CableFrame.feed_status hF.1 (b := 0xF0) rfl c
    refine CableFrame.settles_cons (by rw [hfeed, CableFrame.complete_events])
      (CableFrame.settles_sysex (F.feed_inv c 0xF0 (CableFrame.inv_of_empty hF.1 c)) ?_ hbody)
    rw [hfeed]
    rfl

theorem CableFrame.settles_messages {messages : List (List Byte)} (hm : ∀ m ∈ messages, MessageForm m) (hF : F.Clean) :
    F.Settles c messages.flatten := by
  induction messages generalizing F with
  | nil => exact CableFrame.settles_nil hF
  | cons m messages ih =>
    obtain ⟨hfirst, hrest⟩ := List.forall_mem_cons.mp hm
    exact CableFrame.settles_append (CableFrame.settles_message hfirst hF) fun _ hG => ih hrest hG

end

/-- Settles O20: a well-formed stream emits no event and leaves the frame clean; so no byte is lost, and none is held at
the end. -/
theorem streamRoundTrip : Obligations.StreamRoundTrip := by
  intro s c messages hm hfilled hsysex
  obtain ⟨seen, t, hrun, hevents, hpackets, hnow⟩ := runOps_pcFeed c messages.flatten s
  obtain ⟨hquiet, hclean⟩ := CableFrame.settles_messages (c := c) hm ⟨hfilled, hsysex⟩
  obtain ⟨hbytes, hcable⟩ := CableFrame.feedAll_conserves (CableFrame.inv_of_empty hfilled c) hquiet
  rw [← hnow] at hclean hbytes
  rw [← hpackets] at hbytes hcable
  rw [CableFrame.pending_of_empty hclean.1, CableFrame.pending_of_empty hfilled, List.append_nil] at hbytes
  exact ⟨seen, t, hrun, List.flatMap_eq_nil_iff.mp (hevents.trans hquiet), hclean.1, hclean.2, hbytes, hcable⟩

end Sys2Proof.Machine

/-! PROOFS. The unpack family: `PC.UNPACK` by its CIN, and of a packet that `PC.FEED` returned. -/

namespace Sys2Proof.Machine

/-! ### The CIN alone decides (R141 to R143) -/

/-- The 16 CINs by their number of valid bytes (R56). -/
theorem nbytes_of_mem (cin : Nibble) :
    (cin ∈ ([0x0, 0x1] : List Nibble) → nbytes cin = none) ∧
    (cin ∈ ([0x5, 0xF] : List Nibble) → nbytes cin = some 1) ∧
    (cin ∈ ([0x2, 0x6, 0xC, 0xD] : List Nibble) → nbytes cin = some 2) ∧
    (cin ∈ ([0x3, 0x4, 0x7, 0x8, 0x9, 0xA, 0xB, 0xE] : List Nibble) → nbytes cin = some 3) := by
  revert cin; decide

/-- Settles O22: the CIN's number of valid bytes tells whether the packet is discarded and what it gives. -/
theorem unpackByCin : Obligations.UnpackByCin := by
  intro s p
  obtain ⟨hreserved, hone, htwo, hthree⟩ := nbytes_of_mem (Packet.cin p)
  exact ⟨fun h => congrArg _ (s.unpack_reserved (hreserved h)), fun h => congrArg _ (s.unpack_valid (hone h)),
    fun h => congrArg _ (s.unpack_valid (htwo h)), fun h => congrArg _ (s.unpack_valid (hthree h))⟩

/-! ### A returned packet leaves the frame empty (R136) -/

section
variable {F : CableFrame} {c : Cable} {b : Byte} {es : List Event} {p : Packet}

theorem CableFrame.filled_of_complete_returned (hp : (F.complete es).result = some p) :
    (F.complete es).now.filled = 0 := by
  obtain ⟨-, h⟩ | ⟨-, h⟩ := F.complete_cases es
  · rw [h]
  · simp [h] at hp

/-- `START` returns a packet for a status byte only. -/
theorem CableFrame.filled_of_first_returned (hp : (F.first c b es).result = some p) :
    isStatus b = true ∧ (F.first c b es).now.filled = 0 := by
  obtain ⟨hb, h⟩ | ⟨-, -, h⟩ | ⟨-, -, h⟩ := F.first_cases c b es
  · rw [h] at hp ⊢
    exact ⟨hb, CableFrame.filled_of_complete_returned hp⟩
  · simp [h] at hp
  · simp [h] at hp

theorem CableFrame.filled_of_feed_returned (hp : (F.feed c b).result = some p) : (F.feed c b).now.filled = 0 := by
  obtain ⟨-, h⟩ | ⟨-, -, h⟩ | ⟨-, -, ⟨-, -, q, -, h⟩ | ⟨-, -, h⟩ | ⟨-, h⟩⟩ := F.feed_cases c b
  · rw [h] at hp ⊢
    exact (CableFrame.filled_of_first_returned hp).2
  · simp [h] at hp
  · rw [h]
  · rw [h] at hp ⊢
    exact (CableFrame.filled_of_first_returned hp).2
  · rw [h] at hp ⊢
    exact CableFrame.filled_of_complete_returned hp

/-! ### What went into a returned packet (R146) -/

/-- With an event, a returned packet is one that a status byte started and filled by itself, the bytes held before it
discarded (R134). -/
theorem CableFrame.feed_conserves_of_event (hp : (F.feed c b).result = some p) (hevent : (F.feed c b).events ≠ []) :
    Conserves c (F.feed c b).result.toList (F.feed c b).now [b] := by
  obtain ⟨-, h⟩ | ⟨-, -, h⟩ | ⟨-, -, ⟨-, -, q, -, h⟩ | ⟨-, hb, h⟩ | ⟨-, h⟩⟩ := F.feed_cases c b
  · rw [h] at hp hevent
    obtain ⟨hb, -⟩ := CableFrame.filled_of_first_returned hp
    rw [CableFrame.first_of_status hb] at hevent
    exact absurd rfl hevent
  · simp [h] at hp
  · simp [h] at hevent
  · rw [h, CableFrame.first_of_status hb]
    exact CableFrame.first_conserves (by rw [CableFrame.first_of_status hb])
  · simp [h] at hevent

/-- Where no byte is left in the frame, the one packet returned gives them all. -/
theorem Conserves.unpack_eq {bytes : List Byte} (h : Conserves c [p] F bytes) (hfilled : F.filled = 0) :
    ∃ u, Packet.unpack p = some u ∧ u.cable = c ∧ u.bytes = bytes := by
  obtain ⟨hbytes, hcable⟩ := h
  obtain ⟨u, hu, hc⟩ := hcable p List.mem_cons_self
  refine ⟨u, hu, hc, ?_⟩
  rwa [CableFrame.pending_of_empty hfilled, List.append_nil, List.flatMap_singleton, unpackedBytes, hu] at hbytes

end

/-- Settles O24: `PC.FEED` conserves the bytes held and the byte fed, or, with an event, the byte fed; and what it
returns leaves none in the frame. -/
theorem unpackOfAFedPacket : Obligations.UnpackOfAFedPacket := by
  intro s t c b p hinv hexec hresult
  obtain rfl : s.feed c b = t := Host.Outcome.next.inj hexec
  have hp : ((s.cable c).feed c b).result = some p := OpResult.packet.inj hresult
  have hconserves : Conserves c [p] ((s.cable c).feed c b).now
      ((if ((s.cable c).feed c b).events = [] then (s.cable c).pending else []) ++ [b]) := by
    have hreturned : ((s.cable c).feed c b).result.toList = [p] := by rw [hp]; rfl
    rw [← hreturned]
    split
    · exact CableFrame.feed_conserves hinv ‹_›
    · exact CableFrame.feed_conserves_of_event hp ‹_›
  exact hconserves.unpack_eq (CableFrame.filled_of_feed_returned hp)

end Sys2Proof.Machine

/-! PROOFS. The accumulator family: `SX.APPEND1` arm by arm, a whole SysEx given byte by byte, `SX.APPEND` as a fold,
`SX.SCAN_ABORT` and `SX.RESET`, and a non-SysEx packet that meets a message in the buffer. -/

namespace Sys2Proof.Machine

/-! ### The arms of `SX.APPEND1` (R148 to R155)

`append1_restart`, `append1_eox` and `append1_store` stand with the byte rows; these are the other arms. -/

theorem SysexBuffer.isComplete_of_idle {S : SysexBuffer} (hidle : S.length.val = 0) : S.isComplete = false := by
  simp [SysexBuffer.isComplete, hidle]

section
variable {S : SysexBuffer} (draw : Nat) {b : Byte}

theorem SysexBuffer.append1_start (hidle : S.length.val = 0) :
    S.append1 draw 0xF0 = ⟨S.put 0 0xF0, .continuing, []⟩ := by
  rw [SysexBuffer.append1, if_neg (by simp [SysexBuffer.isComplete_of_idle hidle]), if_pos hidle, if_pos rfl]

theorem SysexBuffer.append1_badStart (hidle : S.length.val = 0) (hb : b ≠ 0xF0) :
    S.append1 draw b = ⟨S, .aborted, [.sysexBadStart]⟩ := by
  rw [SysexBuffer.append1, if_neg (by simp [SysexBuffer.isComplete_of_idle hidle]), if_pos hidle, if_neg hb]

theorem SysexBuffer.append1_drop (hprogress : S.InProgress) (hfull : S.length.val = 2047) (hstart : b ≠ 0xF0)
    (heox : b ≠ 0xF7) :
    S.append1 draw b = ⟨{ S with droppedCount := satInc S.droppedCount }, .continuing, [.sysexByteDropped]⟩ := by
  obtain ⟨hpos, hopen⟩ := hprogress
  rw [SysexBuffer.append1, if_neg (by simp [hopen]), if_neg hpos.ne', if_neg hstart, if_neg heox,
    if_neg (by simp [Config.sysexCapacity, hfull])]

theorem SysexBuffer.append1_refused (hcomplete : S.isComplete = true) :
    S.append1 draw b = ⟨S, .refused, [.appendAfterComplete]⟩ := if_pos hcomplete

end

/-- An operation that keeps the buffer changes the counters and the outcome only. -/
theorem State.accumulate_kept (s : State) (c : Cable) (r : AccumResult) (es : List Event) :
    s.accumulate c ⟨s.sysex c, r, es⟩ = s.finish (.accum r) es := by
  rw [State.accumulate, State.setSysex_self]

theorem State.append1_sysex (s : State) (c : Cable) (b : Byte) :
    (s.append1 c b).sysex c = ((s.sysex c).append1 s.draws b).now := s.setSysex_sysex c _

theorem exec_sxAppend1 (s : State) (c : Cable) (b : Byte) : exec (.sxAppend1 c b) s = .next (s.append1 c b) := rfl

/-! ### A whole SysEx, byte by byte (R159) -/

@[simp] theorem saturated_zero : saturated 0 = 0 := rfl

theorem satInc_saturated (n : Nat) : satInc (saturated n) = saturated (n + 1) := by
  refine BitVec.eq_of_toNat_eq ?_
  rw [satInc_toNat]
  simp only [saturated, BitVec.toNat_ofNat]
  omega

section
variable {S : SysexBuffer} (hwf : Memory.wf 2048 S.bytes = true)
include hwf

theorem SysexBuffer.message_put {i : Nat} (hi : i < 2048) (b : Byte) :
    (S.put i b).message = Memory.copy S.bytes i ++ [b] := by
  rw [SysexBuffer.message, SysexBuffer.put_length S b hi]
  exact Memory.copy_write_succ hwf i b

theorem SysexBuffer.inProgress_put {i : Nat} (hi : i < 2048) {b : Byte} (heox : b ≠ 0xF7) :
    (S.put i b).InProgress := by
  refine ⟨by rw [SysexBuffer.put_length S b hi]; omega, ?_⟩
  rw [← Bool.not_eq_true, SysexBuffer.isComplete_put hwf hi]
  exact heox

end

/-- What `kept` keeps of a message is told by the bytes before its EOX. -/
theorem kept_append_eox (m : List Byte) : kept (m ++ [0xF7]) = m.take 2047 ++ [0xF7] := by
  unfold kept
  split
  · next hfits =>
    rw [List.length_append, List.length_singleton] at hfits
    rw [List.take_of_length_le (by omega)]
  · next hlong =>
    rw [List.length_append, List.length_singleton] at hlong
    rw [List.take_append_of_le_length (by omega)]

/-- The buffer after the bytes `m` of a SysEx that has not ended: it holds the first 2047 of them and has counted the
others (R152, R153). -/
structure SysexBuffer.Holds (S : SysexBuffer) (m : List Byte) : Prop where
  inProgress : S.InProgress
  wf : Memory.wf 2048 S.bytes = true
  message : S.message = m.take 2047
  dropped : S.droppedCount = saturated (m.length - 2047)

/-- A message begun, or begun anew, holds its 0xF0. -/
theorem SysexBuffer.holds_put_start {S : SysexBuffer} (hwf : Memory.wf 2048 S.bytes = true)
    (hdropped : S.droppedCount = 0) : (S.put 0 0xF0).Holds [0xF0] where
  inProgress := SysexBuffer.inProgress_put hwf (by decide) (by decide)
  wf := Memory.write_wf 0xF0 (by decide) hwf
  message := SysexBuffer.message_put hwf (by decide) 0xF0
  dropped := hdropped

section
variable {S : SysexBuffer} {m : List Byte} (h : S.Holds m)
include h

theorem SysexBuffer.Holds.length_eq : S.length.val = min 2047 m.length := by
  calc S.length.val = S.message.length := (Memory.copy_length S.bytes _).symm
    _ = min 2047 m.length := by rw [h.message, List.length_take]

/-- While there is room the byte joins the ones held. -/
theorem SysexBuffer.Holds.put (hroom : m.length ≤ 2046) {b : Byte} (heox : b ≠ 0xF7) :
    (S.put S.length.val b).Holds (m ++ [b]) := by
  have hlen : S.length.val < 2048 := by have := h.length_eq; omega
  refine ⟨SysexBuffer.inProgress_put h.wf hlen heox, Memory.write_wf b hlen h.wf, ?_, ?_⟩
  · calc (S.put S.length.val b).message = S.message ++ [b] := SysexBuffer.message_put h.wf hlen b
      _ = m ++ [b] := by rw [h.message, List.take_of_length_le (by omega)]
      _ = (m ++ [b]).take 2047 := by rw [List.take_of_length_le (by simp; omega)]
  · rw [SysexBuffer.put_droppedCount, h.dropped, List.length_append, List.length_singleton,
      Nat.sub_eq_zero_of_le (by omega), Nat.sub_eq_zero_of_le (by omega)]

/-- Without room the byte is counted. -/
theorem SysexBuffer.Holds.drop (hfull : 2047 ≤ m.length) (b : Byte) :
    SysexBuffer.Holds { S with droppedCount := satInc S.droppedCount } (m ++ [b]) where
  inProgress := h.inProgress
  wf := h.wf
  message := h.message.trans (List.take_append_of_le_length hfull).symm
  dropped := by
    rw [h.dropped, satInc_saturated, List.length_append, List.length_singleton, Nat.sub_add_comm hfull]

/-- A byte that neither restarts nor ends the message is held or counted, and the message goes on (R152 to R154). -/
theorem SysexBuffer.Holds.append1 (draw : Nat) {b : Byte} (hstart : b ≠ 0xF0) (heox : b ≠ 0xF7) :
    (S.append1 draw b).result = .continuing ∧ (S.append1 draw b).now.Holds (m ++ [b]) := by
  have hlen := h.length_eq
  by_cases hroom : m.length ≤ 2046
  · rw [SysexBuffer.append1_store h.inProgress draw (by omega) hstart heox]
    exact ⟨rfl, h.put hroom heox⟩
  · rw [SysexBuffer.append1_drop draw h.inProgress (by omega) hstart heox]
    exact ⟨rfl, h.drop (by omega) b⟩

/-- The EOX completes what is kept of the message, and the bytes that were dropped stay counted (R151, R159). -/
theorem SysexBuffer.Holds.append1_eox (draw : Nat) :
    (S.append1 draw 0xF7).result = .complete (min (m.length + 1) 2048) ∧
    (S.append1 draw 0xF7).now.message = kept (m ++ [0xF7]) ∧
    (S.append1 draw 0xF7).now.droppedCount = saturated (m.length + 1 - 2048) := by
  have hlen := h.length_eq
  rw [SysexBuffer.append1_eox h.inProgress draw (by omega)]
  refine ⟨congrArg AccumResult.complete (by omega), ?_, h.dropped.trans (congrArg saturated (by omega))⟩
  calc (S.put S.length.val 0xF7).message = S.message ++ [0xF7] := SysexBuffer.message_put h.wf (by omega) 0xF7
    _ = kept (m ++ [0xF7]) := by rw [h.message, kept_append_eox]

end

/-- Bytes that neither restart nor end the message, given to `SX.APPEND1` one after another. -/
theorem runOps_sxAppend1_of_holds {c : Cable} {body : List Byte} (hbody : ∀ b ∈ body, b ≠ 0xF0 ∧ b ≠ 0xF7) {s : State}
    {m : List Byte} (h : (s.sysex c).Holds m) :
    ∃ seen t, runOps (body.map (Instr.sxAppend1 c)) s = some (seen, t) ∧
      (∀ o ∈ seen, o.1 = .accum .continuing) ∧ (t.sysex c).Holds (m ++ body) := by
  induction body generalizing s m with
  | nil => exact ⟨[], s, rfl, nofun, by rwa [List.append_nil]⟩
  | cons b body ih =>
    obtain ⟨⟨hstart, heox⟩, hrest⟩ := List.forall_mem_cons.mp hbody
    obtain ⟨hresult, hnow⟩ := h.append1 s.draws hstart heox
    obtain ⟨seen, t, hrun, hseen, ht⟩ := ih hrest (s := s.append1 c b) (s.append1_sysex c b ▸ hnow)
    exact ⟨_, t, runOps_cons_of_next (exec_sxAppend1 s c b) hrun,
      List.forall_mem_cons.mpr ⟨congrArg OpResult.accum hresult, hseen⟩, by simpa using ht⟩

/-- Settles O34: the 0xF0 begins the message, the body is held or counted byte by byte, and the EOX completes what is
kept. -/
theorem sysexCapacity : Obligations.SysexCapacity := by
  intro s c body hbody hidle hdropped hwf
  have hstart := SysexBuffer.append1_start s.draws hidle
  have hbegun : ((s.append1 c 0xF0).sysex c).Holds [0xF0] := by
    rw [State.append1_sysex, hstart]
    exact SysexBuffer.holds_put_start hwf hdropped
  obtain ⟨seen, t, hrun, hseen, ht⟩ := runOps_sxAppend1_of_holds hbody hbegun
  obtain ⟨hresult, hmessage, hcount⟩ := ht.append1_eox t.draws
  rw [← State.append1_sysex] at hmessage hcount
  have hlast : runOps ([0xF7].map (Instr.sxAppend1 c)) t = some (_, t.append1 c 0xF7) :=
    runOps_cons_of_next (exec_sxAppend1 t c 0xF7) rfl
  have hall := runOps_cons_of_next (exec_sxAppend1 s c 0xF0) (runOps_append hrun hlast)
  rw [← List.map_append, ← List.map_cons] at hall
  refine ⟨_ :: seen, _, t.append1 c 0xF7, hall, List.forall_mem_cons.mpr ⟨?_, hseen⟩, ?_, ?_, hmessage⟩
  · exact congrArg (fun did => OpResult.accum did.result) hstart
  · rw [List.length_append, List.length_singleton, Nat.add_comm 1] at hresult
    exact congrArg OpResult.accum hresult
  · rwa [List.length_append, List.length_singleton, Nat.add_comm 1] at hcount

/-! ### One byte (R149 to R155) -/

/-- Settles O25: the two arms of an idle buffer. -/
theorem appendFirstByte : Obligations.AppendFirstByte := by
  intro s c b hidle hwf
  refine ⟨?_, fun hb => ?_⟩
  · rintro rfl
    refine ⟨_, SysexBuffer.stored_put hwf (by decide) 0xF0, ?_⟩
    rw [exec_sxAppend1, State.append1, SysexBuffer.append1_start s.draws hidle]
    rfl
  · rw [exec_sxAppend1, State.append1, SysexBuffer.append1_badStart s.draws hidle hb, State.accumulate_kept]
    rfl

/-- Settles O26: `State.append1_restart` as an instruction. -/
theorem appendRestarts : Obligations.AppendRestarts := by
  intro s c hprogress hwf
  obtain ⟨T, hT, happend⟩ := State.append1_restart hprogress hwf
  exact ⟨T, hT, congrArg _ happend⟩

/-- Settles O27: `State.append1_eox` as an instruction. -/
theorem appendEoxCompletes : Obligations.AppendEoxCompletes := by
  intro s c hprogress hlen hwf
  obtain ⟨T, hT, happend⟩ := State.append1_eox hprogress hwf hlen
  exact ⟨T, hT, congrArg _ happend⟩

/-- Settles O28: with room the byte is stored, at length 2047 it is dropped. -/
theorem appendStoresOrDrops : Obligations.AppendStoresOrDrops := by
  intro s c b hprogress hstart heox hwf
  refine ⟨fun hroom => ?_, fun hfull => ?_⟩
  · obtain ⟨T, hT, happend⟩ := State.append1_store hprogress hwf hroom hstart heox
    exact ⟨T, hT, congrArg _ happend⟩
  · rw [exec_sxAppend1, State.append1, SysexBuffer.append1_drop s.draws hprogress hfull hstart heox]
    rfl

/-- Settles O29: the refusing arm keeps the buffer, and its event names no counter. -/
theorem appendAfterCompleteRefused : Obligations.AppendAfterCompleteRefused := by
  intro s c b hcomplete
  rw [exec_sxAppend1, State.append1, SysexBuffer.append1_refused s.draws hcomplete, State.accumulate_kept]
  rfl

/-! ### `SX.APPEND` as a fold (R156) -/

/-- Two accumulator operations on one cable, one after the other, are one that emits the events of both in order. -/
theorem State.accumulate_accumulate (s : State) (c : Cable) (one more : Did SysexBuffer AccumResult) :
    { (s.accumulate c one).accumulate c more with events := one.events ++ more.events } =
      s.accumulate c ⟨more.now, more.result, one.events ++ more.events⟩ := by
  simp [State.accumulate, State.finish, State.setSysex, countEvents_append]

/-- Settles O30, by the two cases of `append_cons`: the rest is appended from the state after the first byte, or not at
all. -/
theorem appendIsAFold : Obligations.AppendIsAFold := by
  refine ⟨fun s c => congrArg Host.Outcome.next (s.accumulate_kept c .continuing []), fun s c b bs => ?_⟩
  refine ⟨s.append1 c b, rfl, fun hstop => ?_, fun hcontinue => ?_⟩
  · obtain ⟨hresult, -⟩ | ⟨-, happend⟩ := (s.sysex c).append_cons s.draws b bs
    · exact absurd (congrArg OpResult.accum hresult) hstop
    · exact congrArg (fun did => Host.Outcome.next (s.accumulate c did)) happend
  · obtain ⟨-, happend⟩ | ⟨hresult, -⟩ := (s.sysex c).append_cons s.draws b bs
    · refine ⟨_, rfl, ?_⟩
      rw [State.append1_sysex, State.append1_draws]
      exact congrArg Host.Outcome.next
        ((congrArg (s.accumulate c) happend).trans (s.accumulate_accumulate c _ _).symm)
    · exact absurd (OpResult.accum.inj hcontinue) hresult

/-! ### `SX.SCAN_ABORT` and `SX.RESET` (R157, R158) -/

section
variable {S : SysexBuffer} (draw : Nat) {bytes : List Byte}

theorem SysexBuffer.scanAbort_idle (hidle : S.length.val = 0) : S.scanAbort draw bytes = ⟨S, .continuing, []⟩ :=
  if_pos hidle

theorem SysexBuffer.scanAbort_refused (hcomplete : S.isComplete = true) :
    S.scanAbort draw bytes = ⟨S, .refused, [.appendAfterComplete]⟩ := by
  obtain ⟨hpos, -⟩ := S.isComplete_iff.mp hcomplete
  rw [SysexBuffer.scanAbort, if_neg hpos.ne', if_pos hcomplete]

theorem SysexBuffer.scanAbort_eox (hprogress : S.InProgress) (hmem : 0xF7 ∈ bytes) :
    S.scanAbort draw bytes = S.append1 draw 0xF7 := by
  obtain ⟨hpos, hopen⟩ := hprogress
  rw [SysexBuffer.scanAbort, if_neg hpos.ne', if_neg (by simp [hopen]), if_pos hmem]

theorem SysexBuffer.scanAbort_discard (hprogress : S.InProgress) (hmem : 0xF7 ∉ bytes) :
    S.scanAbort draw bytes = ⟨S.clear, .aborted, [.sysexAbortedByMessage]⟩ := by
  obtain ⟨hpos, hopen⟩ := hprogress
  rw [SysexBuffer.scanAbort, if_neg hpos.ne', if_neg (by simp [hopen]), if_neg hmem]

/-- An EOX completes a message in progress of any length. -/
theorem SysexBuffer.append1_eox_result (hprogress : S.InProgress) :
    (S.append1 draw 0xF7).result = .complete (S.eoxSlot draw + 1) := by
  obtain ⟨hpos, hopen⟩ := hprogress
  rw [SysexBuffer.append1, if_neg (by simp [hopen]), if_neg hpos.ne', if_neg (by decide), if_pos rfl]

end

/-- Settles O31: the four arms of R157, by the state of the buffer and the bytes. -/
theorem scanAbort : Obligations.ScanAbort := by
  intro s c bytes
  have hexec : exec (.sxScanAbort c bytes) s = .next (s.accumulate c ((s.sysex c).scanAbort s.draws bytes)) := rfl
  rw [hexec]
  refine ⟨fun hidle => ?_, fun hcomplete => ?_, fun hprogress hmem => ?_, fun hprogress hmem => ?_⟩
  · rw [SysexBuffer.scanAbort_idle s.draws hidle, State.accumulate_kept]
    rfl
  · rw [SysexBuffer.scanAbort_refused s.draws hcomplete, State.accumulate_kept]
    rfl
  · rw [SysexBuffer.scanAbort_eox s.draws hprogress hmem]
    exact ⟨rfl, _, _, rfl, congrArg OpResult.accum (SysexBuffer.append1_eox_result s.draws hprogress)⟩
  · rw [SysexBuffer.scanAbort_discard s.draws hprogress hmem]
    rfl

/-- Settles O32: `clear` leaves the bytes, and an operation without events leaves the counters. -/
theorem sysexReset : Obligations.SysexReset := fun s c =>
  congrArg Host.Outcome.next ((s.setSysex c (s.sysex c).clear).finish_no_events .noResult)

/-! ### A non-SysEx packet while the buffer is not idle (R163, R167) -/

/-- Which packets go to the accumulator (R164). -/
theorem Unpacked.isSysex_iff {p : Packet} {u : Unpacked} (hu : Packet.unpack p = some u) :
    u.isSysex = true ↔ u.cin = 0x4 ∨ u.cin = 0x6 ∨ u.cin = 0x7 ∨ (u.cin = 0x5 ∧ p.b1 = 0xF7) := by
  obtain ⟨-, hnone⟩ | ⟨n, hn, hsome⟩ := Packet.unpack_cases p
  · exact nomatch hnone.symm.trans hu
  · obtain rfl := Option.some.inj (hsome.symm.trans hu)
    have hone (hcin : Packet.cin p = 0x5) : n = 1 := by
      rw [hcin] at hn
      exact (Option.some.inj hn).symm
    rw [Unpacked.isSysex, decide_eq_true_iff]
    refine or_congr_right (or_congr_right (or_congr_right (and_congr_right fun hcin => ?_)))
    rw [hone hcin]
    exact Option.some_inj

theorem Unpacked.isSysex_eq_false {p : Packet} {u : Unpacked} (hu : Packet.unpack p = some u)
    (hshort : u.cin ∈ ([0x2, 0x3, 0x8, 0x9, 0xA, 0xB, 0xC, 0xD, 0xE, 0xF] : List Nibble) ∨
      (u.cin = 0x5 ∧ p.b1 ≠ 0xF7)) : u.isSysex = false := by
  rw [← Bool.not_eq_true, Unpacked.isSysex_iff hu]
  obtain hcin | ⟨hcin, hb⟩ := hshort
  · have hothers : ∀ cin ∈ ([0x2, 0x3, 0x8, 0x9, 0xA, 0xB, 0xC, 0xD, 0xE, 0xF] : List Nibble),
        ¬(cin = 0x4 ∨ cin = 0x6 ∨ cin = 0x7 ∨ cin = 0x5) := by decide
    exact fun h => hothers _ hcin (h.imp_right (Or.imp_right (Or.imp_right And.left)))
  · simpa [hcin] using hb

theorem State.rxPacket_short {s : State} {p : Packet} {u : Unpacked} (hu : Packet.unpack p = some u)
    (hshort : u.isSysex = false) :
    s.rxPacket p = (s.setSysex u.cable ((s.sysex u.cable).rxShort s.draws u).now).finish
      (.message ((s.sysex u.cable).rxShort s.draws u).result) ((s.sysex u.cable).rxShort s.draws u).events := by
  simp [State.rxPacket, hu, hshort]

section
variable {S : SysexBuffer} (draw : Nat) {u : Unpacked}

theorem SysexBuffer.rxShort_discard (hprogress : S.InProgress) (hmem : 0xF7 ∉ u.bytes) :
    S.rxShort draw u = ⟨S.clear, some (.short u.cable u.bytes), [.sysexAbortedByMessage]⟩ := by
  rw [SysexBuffer.rxShort, if_pos hprogress.1]
  simp only [SysexBuffer.scanAbort_discard draw hprogress hmem]

theorem SysexBuffer.rxShort_eox (hprogress : S.InProgress) (hlen : S.length.val ≤ 2047)
    (hwf : Memory.wf 2048 S.bytes = true) (hmem : 0xF7 ∈ u.bytes) :
    S.rxShort draw u = ⟨(S.put S.length.val 0xF7).clear,
      some (.sysex u.cable (S.message ++ [0xF7]) S.droppedCount), [.sysexEoxInForeignPacket]⟩ := by
  have hmessage : (S.put S.length.val 0xF7).message = S.message ++ [0xF7] :=
    SysexBuffer.message_put hwf (by omega) 0xF7
  have hscan := (SysexBuffer.scanAbort_eox draw hprogress hmem).trans (SysexBuffer.append1_eox hprogress draw hlen)
  rw [SysexBuffer.rxShort, if_pos hprogress.1]
  simp only [hscan, SysexBuffer.handOff, hmessage, SysexBuffer.put_droppedCount, List.nil_append]

theorem SysexBuffer.rxShort_refused (hcomplete : S.isComplete = true) :
    S.rxShort draw u = ⟨S, some (.short u.cable u.bytes), [.appendAfterComplete]⟩ := by
  obtain ⟨hpos, -⟩ := S.isComplete_iff.mp hcomplete
  rw [SysexBuffer.rxShort, if_pos hpos]
  simp only [SysexBuffer.scanAbort_refused draw hcomplete]

end

/-- Settles O39: the short route takes the packet, and `SX.SCAN_ABORT` decides by the state of the buffer. -/
theorem receiveAnomaly : Obligations.ReceiveAnomaly := by
  intro s p u S hu hshort hS
  have hexec : exec (.pcRxPacket p) s = .next _ :=
    congrArg Host.Outcome.next (State.rxPacket_short hu (Unpacked.isSysex_eq_false hu hshort))
  rw [hexec, hS]
  refine ⟨fun hprogress hlen hwf => ⟨fun hmem => ?_, fun hmem => ?_⟩, fun hcomplete => ?_⟩
  · rw [SysexBuffer.rxShort_discard s.draws hprogress hmem]
    rfl
  · rw [SysexBuffer.rxShort_eox s.draws hprogress hlen hwf hmem]
    rfl
  · rw [SysexBuffer.rxShort_refused s.draws hcomplete, ← hS, State.setSysex_self]
    rfl

end Sys2Proof.Machine

/-! PROOFS. The receive family: `PC.RX_PACKET` by its routes, and the messages of a well-formed stream of packets. -/

namespace Sys2Proof.Machine

/-! ### The routes of `PC.RX_PACKET` (R163 to R169) -/

theorem exec_pcRxPacket (s : State) (p : Packet) : exec (.pcRxPacket p) s = .next (s.rxPacket p) := rfl

/-- Settles O36: a packet that unpacks to nothing is discarded. -/
theorem receiveReservedCin : Obligations.ReceiveReservedCin := by
  intro s p hcin
  obtain ⟨hreserved, -⟩ := nbytes_of_mem (Packet.cin p)
  have hnone : nbytes (Packet.cin p) = none := hreserved (by simpa [Packet.cin] using hcin)
  have hunpack : Packet.unpack p = none := by rw [Packet.unpack, hnone]
  rw [exec_pcRxPacket, State.rxPacket, hunpack]
  rfl

theorem SysexBuffer.rxShort_idle {S : SysexBuffer} (draw : Nat) (u : Unpacked) (hidle : S.length.val = 0) :
    S.rxShort draw u = ⟨S, some (.short u.cable u.bytes), []⟩ := by
  rw [SysexBuffer.rxShort, if_neg hidle.not_gt]

/-- Settles O37: the short route with nothing accumulated returns the packet and keeps the buffer. -/
theorem receiveShortMessage : Obligations.ReceiveShortMessage := by
  intro s p u hu hshort hidle
  rw [exec_pcRxPacket, State.rxPacket_short hu (Unpacked.isSysex_eq_false hu hshort),
    SysexBuffer.rxShort_idle s.draws u hidle, State.setSysex_self]
  rfl

theorem State.rxPacket_sysex {s : State} {p : Packet} {u : Unpacked} (hu : Packet.unpack p = some u)
    (hsysex : u.isSysex = true) :
    s.rxPacket p = (s.setSysex u.cable ((s.sysex u.cable).rxSysex s.draws u).now).finish
      (.message ((s.sysex u.cable).rxSysex s.draws u).result) ((s.sysex u.cable).rxSysex s.draws u).events := by
  simp [State.rxPacket, hu, hsysex]

theorem State.setSysex_finish (s : State) (c : Cable) (S : SysexBuffer) (r : OpResult) (es : List Event) :
    (s.finish r es).setSysex c S = (s.setSysex c S).finish r es := rfl

/-- `Complete(n)` names the length of the message (R151). -/
theorem SysexBuffer.length_of_append1_complete {S : SysexBuffer} {draw : Nat} {b : Byte} {n : Nat}
    (h : (S.append1 draw b).result = .complete n) : (S.append1 draw b).now.length.val = n := by
  obtain ⟨-, hb⟩ | ⟨-, -, -, hb⟩ | ⟨-, -, -, hb⟩ | ⟨-, -, -, hb⟩ | ⟨-, -, -, hb⟩ | ⟨-, -, -, -, -, hb⟩ |
    ⟨-, -, -, -, hb⟩ := S.append1_cases draw b <;> rw [hb] at h ⊢
  case inr.inr.inr.inr.inl =>
    rw [SysexBuffer.put_length S 0xF7 (S.eoxSlot_lt draw)]
    exact AccumResult.complete.inj h
  all_goals exact nomatch h

theorem SysexBuffer.length_of_append_complete {S : SysexBuffer} {draw : Nat} {bytes : List Byte} {n : Nat}
    (h : (S.append draw bytes).result = .complete n) : (S.append draw bytes).now.length.val = n := by
  induction bytes generalizing S with
  | nil => exact nomatch h
  | cons b bytes ih =>
    obtain ⟨-, happend⟩ | ⟨-, happend⟩ := S.append_cons draw b bytes <;> rw [happend] at h ⊢
    · exact ih h
    · exact SysexBuffer.length_of_append1_complete h

/-- Settles O38: the SysEx route is `SX.APPEND`, and after `Complete(n)` the message handed off is the first `n`
bytes. -/
theorem receiveSysexPacket : Obligations.ReceiveSysexPacket := by
  intro s p u hu hcin
  have hexec : exec (.sxAppend u.cable u.bytes) s =
    .next (s.accumulate u.cable ((s.sysex u.cable).append s.draws u.bytes)) := rfl
  rw [exec_pcRxPacket, State.rxPacket_sysex hu ((Unpacked.isSysex_iff hu).mpr hcin)]
  refine ⟨_, hexec, fun n hn => ?_, fun hn => ?_⟩
  · replace hn := OpResult.accum.inj hn
    obtain ⟨-, -, hroute⟩ | ⟨hother, -⟩ := (s.sysex u.cable).rxSysex_cases s.draws u
    · rw [hroute, ← SysexBuffer.length_of_append_complete hn, State.accumulate, State.finish_sysex,
        State.setSysex_sysex, State.setSysex_finish, State.setSysex_setSysex]
      rfl
    · exact absurd hn (hother n)
  · obtain ⟨n, hcomplete, -⟩ | ⟨-, hroute⟩ := (s.sysex u.cable).rxSysex_cases s.draws u
    · exact absurd (congrArg OpResult.accum hcomplete) (hn n)
    · rw [hroute]
      rfl

/-! ### A list of packets received on one cable

`SysexBuffer.rxAll` is a run of `PC.RX_PACKET` seen from the cable's buffer, to which `runOps_pcRxPacket` ties it. -/

/-- Packets given to `PC.RX_PACKET` in order: the buffer after them, the messages returned and the events. -/
def SysexBuffer.rxAll (draw : Nat) : SysexBuffer → List Packet → Did SysexBuffer (List Message)
  | S, [] => ⟨S, [], []⟩
  | S, p :: ps =>
    ⟨(SysexBuffer.rxAll draw (S.rxPacket draw p).now ps).now,
      (S.rxPacket draw p).result.toList ++ (SysexBuffer.rxAll draw (S.rxPacket draw p).now ps).result,
      (S.rxPacket draw p).events ++ (SysexBuffer.rxAll draw (S.rxPacket draw p).now ps).events⟩

theorem messagesOf_message_cons (r : Option Message) (es : List Event) (seen : List Seen) :
    messagesOf ((.message r, es) :: seen) = r.toList ++ messagesOf seen := by
  cases r <;> rfl

theorem State.rxPacket_eq (s : State) (p : Packet) : s.rxPacket p =
    (s.setSysex (Packet.cable p) ((s.sysex (Packet.cable p)).rxPacket s.draws p).now).finish
      (.message ((s.sysex (Packet.cable p)).rxPacket s.draws p).result)
      ((s.sysex (Packet.cable p)).rxPacket s.draws p).events :=
  (s.rxPacket_eq_onCable p).trans (s.onCable_of_frame_kept _ _ rfl)

theorem runOps_pcRxPacket {c : Cable} {packets : List Packet} (hcable : ∀ p ∈ packets, Packet.cable p = c) (s : State) :
    ∃ seen t, runOps (packets.map Instr.pcRxPacket) s = some (seen, t) ∧
      seen.flatMap Prod.snd = ((s.sysex c).rxAll s.draws packets).events ∧
      messagesOf seen = ((s.sysex c).rxAll s.draws packets).result ∧
      t.sysex c = ((s.sysex c).rxAll s.draws packets).now := by
  induction packets generalizing s with
  | nil => exact ⟨[], s, rfl, rfl, rfl, rfl⟩
  | cons p packets ih =>
    obtain ⟨rfl, hrest⟩ := List.forall_mem_cons.mp hcable
    have hexec := (exec_pcRxPacket s p).trans (congrArg Host.Outcome.next (s.rxPacket_eq p))
    obtain ⟨seen, t, hrun, hevents, hmessages, hnow⟩ := ih hrest _
    rw [State.finish_sysex, State.setSysex_sysex, State.finish_draws, State.setSysex_draws] at hevents hmessages hnow
    refine ⟨_, t, runOps_cons_of_next hexec hrun, ?_, ?_, hnow⟩
    · exact congrArg (((s.sysex (Packet.cable p)).rxPacket s.draws p).events ++ ·) hevents
    · exact (messagesOf_message_cons _ _ seen).trans (congrArg (_ ++ ·) hmessages)

theorem SysexBuffer.rxAll_append (draw : Nat) (S : SysexBuffer) (ps qs : List Packet) : S.rxAll draw (ps ++ qs) =
    ⟨((S.rxAll draw ps).now.rxAll draw qs).now,
      (S.rxAll draw ps).result ++ ((S.rxAll draw ps).now.rxAll draw qs).result,
      (S.rxAll draw ps).events ++ ((S.rxAll draw ps).now.rxAll draw qs).events⟩ := by
  induction ps generalizing S with
  | nil => rfl
  | cons p ps ih => simp only [List.cons_append, SysexBuffer.rxAll, ih, List.append_assoc]

/-! ### Where a SysEx is cut into packets does not matter (R156, R165) -/

/-- `SX.APPEND` of two runs of bytes, the first of which returned `Continuing`, is one after the other. -/
theorem SysexBuffer.append_append {S : SysexBuffer} {draw : Nat} {xs : List Byte}
    (h : (S.append draw xs).result = .continuing) (ys : List Byte) : S.append draw (xs ++ ys) =
      ⟨((S.append draw xs).now.append draw ys).now, ((S.append draw xs).now.append draw ys).result,
        (S.append draw xs).events ++ ((S.append draw xs).now.append draw ys).events⟩ := by
  induction xs generalizing S with
  | nil => rfl
  | cons x xs ih =>
    obtain ⟨hone, hxs⟩ | ⟨hstop, hxs⟩ := S.append_cons draw x xs
    · rw [hxs] at h ⊢
      rw [List.cons_append, SysexBuffer.append, if_pos hone, ih h, List.append_assoc]
    · exact absurd (hxs ▸ h) hstop

theorem SysexBuffer.append_singleton (S : SysexBuffer) (draw : Nat) (b : Byte) :
    S.append draw [b] = S.append1 draw b := by
  obtain ⟨hone, h⟩ | ⟨-, h⟩ := S.append_cons draw b [] <;> rw [h]
  rw [SysexBuffer.append_nil, ← hone, List.append_nil]

/-- Bytes that all return `Continuing` do so up to any of them. -/
theorem SysexBuffer.append_continuing_left {S : SysexBuffer} {draw : Nat} {xs ys : List Byte}
    (h : (S.append draw (xs ++ ys)).result = .continuing) : (S.append draw xs).result = .continuing := by
  induction xs generalizing S with
  | nil => rfl
  | cons x xs ih =>
    obtain ⟨hone, hall⟩ | ⟨hstop, hall⟩ := S.append_cons draw x (xs ++ ys)
    · rw [List.cons_append, hall] at h
      rw [SysexBuffer.append, if_pos hone]
      exact ih h
    · exact absurd (hall ▸ h) hstop

theorem nbytes_ne_zero (cin : Nibble) : nbytes cin ≠ some 0 := by
  revert cin; decide

theorem Packet.unpack_eq_some {p : Packet} {u : Unpacked} (hu : Packet.unpack p = some u) :
    u.cable = Packet.cable p ∧ u.cin = Packet.cin p ∧ u.bytes = unpackedBytes p ∧ u.bytes ≠ [] := by
  have hbytes : u.bytes = unpackedBytes p := by rw [unpackedBytes, hu]
  obtain ⟨-, hnone⟩ | ⟨n, hn, hsome⟩ := Packet.unpack_cases p
  · exact nomatch hnone.symm.trans hu
  · obtain rfl := Option.some.inj (hsome.symm.trans hu)
    refine ⟨rfl, rfl, hbytes, ?_⟩
    cases n with
    | zero => exact absurd hn (nbytes_ne_zero _)
    | succ n => exact List.cons_ne_nil _ _

/-- A packet of cable `c` that goes to `SX.APPEND` (R164). -/
def Packet.SysexOn (c : Cable) (p : Packet) : Prop :=
  ∃ u, Packet.unpack p = some u ∧ u.isSysex = true ∧ u.cable = c

/-- Packets that carry the bytes of one SysEx hand off what `SX.APPEND` of all its bytes at once completes. -/
theorem SysexBuffer.rxAll_sysex {c : Cable} {packets : List Packet} (hpackets : ∀ p ∈ packets, Packet.SysexOn c p)
    {S : SysexBuffer} {draw : Nat} {front : List Byte} {b : Byte} {n : Nat}
    (hbytes : packets.flatMap unpackedBytes = front ++ [b])
    (hfront : (S.append draw front).result = .continuing)
    (hlast : (S.append draw (front ++ [b])).result = .complete n) : S.rxAll draw packets =
      ⟨(S.append draw (front ++ [b])).now.clear,
        [.sysex c (S.append draw (front ++ [b])).now.message (S.append draw (front ++ [b])).now.droppedCount],
        (S.append draw (front ++ [b])).events⟩ := by
  induction packets generalizing S front with
  | nil => exact absurd hbytes.symm (List.append_ne_nil_of_right_ne_nil _ (List.cons_ne_nil _ _))
  | cons p packets ih =>
    obtain ⟨⟨u, hu, hsysex, rfl⟩, hrest⟩ := List.forall_mem_cons.mp hpackets
    have hroute : S.rxPacket draw p = S.rxSysex draw u := by simp [SysexBuffer.rxPacket, hu, hsysex]
    obtain ⟨-, -, hu, -⟩ := Packet.unpack_eq_some hu
    rw [List.flatMap_cons, ← hu] at hbytes
    obtain hnil | ⟨front', b', hconcat⟩ := List.eq_nil_or_concat (packets.flatMap unpackedBytes)
    · -- the packet carries the last byte, and no packet is without a byte
      have hnone : packets = [] := List.eq_nil_iff_forall_not_mem.mpr fun q hq => by
        obtain ⟨v, hv, -⟩ := hrest q hq
        obtain ⟨-, -, hv, hne⟩ := Packet.unpack_eq_some hv
        exact hne (hv.trans (List.flatMap_eq_nil_iff.mp hnil q hq))
      rw [hnil, List.append_nil] at hbytes
      subst hnone
      obtain ⟨-, -, hdid⟩ | ⟨hother, -⟩ := S.rxSysex_cases draw u
      · simp only [SysexBuffer.rxAll, hroute, hdid, SysexBuffer.handOff, hbytes, Option.toList_some, List.append_nil]
      · exact absurd (hbytes ▸ hlast) (hother n)
    · rw [hconcat, List.concat_eq_append, ← List.append_assoc] at hbytes
      obtain ⟨rfl, hb⟩ := List.append_inj' hbytes rfl
      obtain rfl : b' = b := List.singleton_inj.mp hb
      have hfirst := SysexBuffer.append_continuing_left hfront
      rw [List.append_assoc, SysexBuffer.append_append hfirst] at hlast ⊢
      rw [SysexBuffer.append_append hfirst] at hfront
      obtain ⟨m, hcomplete, -⟩ | ⟨-, hdid⟩ := S.rxSysex_cases draw u
      · exact nomatch hcomplete.symm.trans hfirst
      · simp only [SysexBuffer.rxAll, hroute, hdid, Option.toList_none, List.nil_append,
          ih hrest (hconcat.trans List.concat_eq_append) hfront hlast]

/-! ### A whole SysEx given to `SX.APPEND` (R156, R159) -/

/-- Nothing is being accumulated and nothing was dropped. -/
structure SysexBuffer.Idle (S : SysexBuffer) : Prop where
  length : S.length.val = 0
  dropped : S.droppedCount = 0
  wf : Memory.wf 2048 S.bytes = true

theorem SysexBuffer.idle_clear {S : SysexBuffer} (hwf : Memory.wf 2048 S.bytes = true) : S.clear.Idle := ⟨rfl, rfl, hwf⟩

theorem SysexBuffer.Holds.append1_events {S : SysexBuffer} {m : List Byte} (h : S.Holds m) (draw : Nat) {b : Byte}
    (hstart : b ≠ 0xF0) (heox : b ≠ 0xF7) (hroom : m.length ≤ 2046) : (S.append1 draw b).events = [] := by
  have hlen := h.length_eq
  rw [SysexBuffer.append1_store h.inProgress draw (by omega) hstart heox]

theorem SysexBuffer.Holds.append1_eox_events {S : SysexBuffer} {m : List Byte} (h : S.Holds m) (draw : Nat) :
    (S.append1 draw 0xF7).events = [] := by
  have hlen := h.length_eq
  rw [SysexBuffer.append1_eox h.inProgress draw (by omega)]

/-- `SysexBuffer.Holds.append1` for a run of bytes. -/
theorem SysexBuffer.Holds.append {body : List Byte} (hbody : ∀ b ∈ body, b ≠ 0xF0 ∧ b ≠ 0xF7) {S : SysexBuffer}
    {m : List Byte} (h : S.Holds m) (draw : Nat) :
    (S.append draw body).result = .continuing ∧ (S.append draw body).now.Holds (m ++ body) ∧
      ((m ++ body).length ≤ 2047 → (S.append draw body).events = []) := by
  induction body generalizing S m with
  | nil => exact ⟨rfl, by rwa [List.append_nil], fun _ => rfl⟩
  | cons b body ih =>
    obtain ⟨⟨hstart, heox⟩, hrest⟩ := List.forall_mem_cons.mp hbody
    obtain ⟨hone, hnow⟩ := h.append1 draw hstart heox
    obtain ⟨hresult, hheld, hquiet⟩ := ih hrest hnow
    rw [List.append_assoc, List.singleton_append] at hheld hquiet
    rw [SysexBuffer.append, if_pos hone]
    refine ⟨hresult, hheld, fun hfits => List.append_eq_nil_iff.mpr ⟨?_, hquiet hfits⟩⟩
    rw [List.length_append, List.length_cons] at hfits
    exact h.append1_events draw hstart heox (by omega)

/-- From idle, the bytes of a SysEx before its EOX. -/
theorem SysexBuffer.Idle.append_sysex {S : SysexBuffer} (h : S.Idle) {body : List Byte}
    (hbody : ∀ b ∈ body, b ≠ 0xF0 ∧ b ≠ 0xF7) (draw : Nat) :
    (S.append draw (0xF0 :: body)).result = .continuing ∧ (S.append draw (0xF0 :: body)).now.Holds (0xF0 :: body) ∧
      ((0xF0 :: body).length ≤ 2047 → (S.append draw (0xF0 :: body)).events = []) := by
  have hbegun : S.append draw (0xF0 :: body) = (S.put 0 0xF0).append draw body := by
    rw [SysexBuffer.append, SysexBuffer.append1_start draw h.length]
    rfl
  rw [hbegun]
  exact (SysexBuffer.holds_put_start h.wf h.dropped).append hbody draw

/-! ### The packets of one message (R124 to R133) -/

theorem CableFrame.feedAll_append (c : Cable) (F : CableFrame) (xs ys : List Byte) : F.feedAll c (xs ++ ys) =
    ⟨((F.feedAll c xs).now.feedAll c ys).now,
      (F.feedAll c xs).result ++ ((F.feedAll c xs).now.feedAll c ys).result,
      (F.feedAll c xs).events ++ ((F.feedAll c xs).now.feedAll c ys).events⟩ := by
  induction xs generalizing F with
  | nil => rfl
  | cons x xs ih => simp only [List.cons_append, CableFrame.feedAll, ih, List.append_assoc]

/-- The CINs of the packets that are a message by themselves, but for the 0x5 of an unusual single byte (R166). -/
abbrev IsShortCin (cin : Nibble) : Prop := cin ∈ ([0x2, 0x3, 0x8, 0x9, 0xA, 0xB, 0xC, 0xD, 0xE, 0xF] : List Nibble)

theorem ShortStatus.isShortCin {b : Byte} {cin : Nibble} {size : BitVec 2} (h : ShortStatus b cin size)
    (hne : b ≠ 0xF7) : IsShortCin cin := by
  have hall : ∀ b : Byte, ShortStatus b (startShape b).1 (startShape b).2 → b ≠ 0xF7 → IsShortCin (startShape b).1 := by
    decide +kernel
  obtain ⟨hstatus, hshape, hsysex⟩ := h
  simpa only [hshape] using hall b ⟨hstatus, rfl, hsysex⟩ hne

/-- A status byte that opens no SysEx with the data bytes its packet lacks, `cin` the CIN of the packet. -/
def ShortForm (cin : Nibble) (m : List Byte) : Prop :=
  ∃ b size bytes, m = b :: bytes ∧ ShortStatus b cin size ∧ (∀ d ∈ bytes, IsData d) ∧ size.toNat = 1 + bytes.length

theorem MessageForm.short_or_sysex {m : List Byte} (hm : MessageForm m) :
    (∃ cin, IsShortCin cin ∧ ShortForm cin m) ∨ ∃ body, m = 0xF0 :: body ++ [0xF7] ∧ ∀ b ∈ body, IsData b := by
  have hshort {b : Byte} {cin : Nibble} {size : BitVec 2} {bytes : List Byte} (hb : ShortStatus b cin size)
      (hne : b ≠ 0xF7) (hdata : ∀ d ∈ bytes, IsData d) (hlen : size.toNat = 1 + bytes.length) :
      ∃ cin, IsShortCin cin ∧ ShortForm cin (b :: bytes) :=
    ⟨cin, hb.isShortCin hne, b, size, bytes, rfl, hb, hdata, hlen⟩
  cases hm with
  | voice3 s a b hs ha hb => exact .inl (hshort (shortStatus_voice3 hs) (by bv_omega) (by simpa using ⟨ha, hb⟩) rfl)
  | voice2 s a hlo hhi ha => exact .inl (hshort (shortStatus_voice2 ⟨hlo, hhi⟩) (by bv_omega) (by simpa using ha) rfl)
  | common2 s a hs ha => exact .inl (hshort (shortStatus_common2 hs) (by bv_omega) (by simpa using ha) rfl)
  | common3 a b ha hb => exact .inl (hshort shortStatus_common3 (by decide) (by simpa using ⟨ha, hb⟩) rfl)
  | single s hs => exact .inl (hshort (shortStatus_single hs) (by bv_omega) nofun rfl)
  | sysex body hbody => exact .inr ⟨body, rfl, hbody⟩

theorem ne_of_isData {b : Byte} (h : IsData b) : b ≠ 0xF0 ∧ b ≠ 0xF7 := by
  constructor <;> bv_omega

theorem ShortForm.head?_ne {cin : Nibble} {m : List Byte} (hm : ShortForm cin m) : m.head? ≠ some 0xF0 := by
  obtain ⟨b, size, bytes, rfl, ⟨-, -, hsysex⟩, -⟩ := hm
  intro hhead
  exact absurd (Option.some.inj hhead) (of_decide_eq_false hsysex)

section
variable {F : CableFrame} {c : Cable}

/-- The data bytes that a packet lacks complete it, and no other packet. -/
theorem CableFrame.feedAll_of_complete {bytes : List Byte} (hdata : ∀ b ∈ bytes, IsData b) (hfilled : F.filled ≠ 0)
    (hlen : F.expectedSize.toNat = F.filled.toNat + bytes.length) :
    ∃ p, (F.complete []).result.toList ++ ((F.complete []).now.feedAll c bytes).result = [p] ∧
      p.b0 = F.packet.b0 := by
  induction bytes generalizing F with
  | nil =>
    have hfull : F.filled = F.expectedSize := BitVec.eq_of_toNat_eq hlen.symm
    rw [CableFrame.complete, if_pos hfull]
    exact ⟨F.packet, rfl, rfl⟩
  | cons b bytes ih =>
    obtain ⟨hb, hdata⟩ := List.forall_mem_cons.mp hdata
    rw [List.length_cons] at hlen
    have hlt : F.filled < F.expectedSize := by bv_omega
    have hmore : F.filled ≠ F.expectedSize := by bv_omega
    have hfeed := CableFrame.feed_store c hfilled hlt ((isStatus_eq_false_iff b).mpr hb)
    obtain ⟨p, hp, hhead⟩ := ih (F := { F with packet := Packet.store F.packet F.filled b, filled := F.filled + 1 })
      hdata (by bv_omega) (by bv_omega)
    rw [CableFrame.complete, if_neg hmore]
    refine ⟨p, ?_, hhead.trans (Packet.store_b0 _ _ _)⟩
    rw [CableFrame.feedAll, hfeed]
    exact hp

/-- A message that opens no SysEx gives one packet, with the CIN of its status byte. -/
theorem CableFrame.feedAll_short {cin : Nibble} {m : List Byte} (hF : F.Clean) (hm : ShortForm cin m) :
    ∃ p, (F.feedAll c m).result = [p] ∧ Packet.cin p = cin := by
  obtain ⟨b, size, bytes, rfl, ⟨hstatus, hshape, -⟩, hdata, hlen⟩ := hm
  rw [CableFrame.feedAll, CableFrame.feed_status hF.1 hstatus c, hshape]
  obtain ⟨p, hp, hhead⟩ := CableFrame.feedAll_of_complete (c := c)
    (F := ⟨⟨packetHead c cin, b, 0x00, 0x00⟩, 1, size, inSysexAfterStart b⟩) hdata
    (show (1 : BitVec 2) ≠ 0 by decide) hlen
  exact ⟨p, hp, by rw [Packet.cin, hhead]; exact loNibble_packetHead c cin⟩

/-- A packet that goes to `SX.APPEND` (R164). -/
abbrev Packet.ForSysex (p : Packet) : Prop :=
  Packet.cin p = 0x4 ∨ Packet.cin p = 0x6 ∨ Packet.cin p = 0x7 ∨ (Packet.cin p = 0x5 ∧ p.b1 = 0xF7)

/-- A packet that a data byte completes in an open SysEx has CIN 0x4. -/
theorem CableFrame.forSysex_of_feed_data (hF : F.Inv c) (hopen : F.inSysex = true) {b : Byte} (hb : isStatus b = false)
    {p : Packet} (hp : (F.feed c b).result = some p) : Packet.ForSysex p := by
  by_cases hfilled : F.filled = 0
  · rw [CableFrame.feed_continue c hfilled hb hopen] at hp
    exact nomatch hp
  · obtain ⟨hlt, hcin⟩ := hF.unfinished_of_inSysex hopen hfilled
    rw [CableFrame.feed_store c hfilled hlt hb, CableFrame.complete] at hp
    split at hp
    · obtain rfl := Option.some.inj hp
      exact .inl ((congrArg loNibble (Packet.store_b0 _ _ _)).trans hcin)
    · exact nomatch hp

/-- The packet that an EOX completes in an open SysEx has CIN 0x6 or 0x7, or holds the EOX alone (R130, R133). -/
theorem CableFrame.forSysex_of_feed_eox (hF : F.Inv c) (hopen : F.inSysex = true) {p : Packet}
    (hp : (F.feed c 0xF7).result = some p) : Packet.ForSysex p := by
  by_cases hfilled : F.filled = 0
  · rw [CableFrame.feed_status hfilled rfl] at hp
    obtain rfl := Option.some.inj hp
    exact .inr (.inr (.inr ⟨loNibble_packetHead c 0x5, rfl⟩))
  · obtain ⟨hlt, hcin⟩ := hF.unfinished_of_inSysex hopen hfilled
    rw [CableFrame.feed_eox c hfilled hlt hcin] at hp
    obtain rfl := Option.some.inj hp
    have hbegun : F.filled = 1 ∨ F.filled = 2 := by
      have := hF.1
      bv_omega
    have hhead : Packet.cin (F.eoxPacket c) = 0x4 + (F.filled.setWidth 4 + 1) := loNibble_packetHead c _
    obtain h | h := hbegun <;> rw [h] at hhead
    · exact .inr (.inl hhead)
    · exact .inr (.inr (.inl hhead))

/-- In an open SysEx, data bytes and the EOX give packets that go to `SX.APPEND`. -/
theorem CableFrame.forSysex_of_feedAll {body : List Byte} (hF : F.Inv c) (hopen : F.inSysex = true)
    (hbody : ∀ b ∈ body, IsData b) : ∀ p ∈ (F.feedAll c (body ++ [0xF7])).result, Packet.ForSysex p := by
  induction body generalizing F with
  | nil =>
    refine List.forall_mem_append.mpr ⟨fun p hp => ?_, nofun⟩
    exact CableFrame.forSysex_of_feed_eox hF hopen (Option.mem_toList.mp hp)
  | cons b body ih =>
    obtain ⟨hb, hbody⟩ := List.forall_mem_cons.mp hbody
    have hdata := (isStatus_eq_false_iff b).mpr hb
    obtain ⟨-, hopen'⟩ := CableFrame.feed_data_of_inSysex hF hopen hdata
    refine List.forall_mem_append.mpr ⟨fun p hp => ?_, ih (F.feed_inv c b hF) hopen' hbody⟩
    exact CableFrame.forSysex_of_feed_data hF hopen hdata (Option.mem_toList.mp hp)

/-- A SysEx gives packets that go to `SX.APPEND`. -/
theorem CableFrame.forSysex_of_feedAll_sysex {body : List Byte} (hF : F.Clean) (hbody : ∀ b ∈ body, IsData b) :
    ∀ p ∈ (F.feedAll c (0xF0 :: body ++ [0xF7])).result, Packet.ForSysex p := by
  have hfeed := CableFrame.feed_status hF.1 (b := 0xF0) rfl c
  have hinv := F.feed_inv c 0xF0 (CableFrame.inv_of_empty hF.1 c)
  rw [List.cons_append, CableFrame.feedAll]
  rw [hfeed] at hinv ⊢
  exact CableFrame.forSysex_of_feedAll hinv rfl hbody

/-- A message from a clean frame comes back from its packets, and the frame is clean after it. -/
theorem CableFrame.message_conserved {m : List Byte} (hm : MessageForm m) (hF : F.Clean) :
    (F.feedAll c m).result.flatMap unpackedBytes = m ∧
    (∀ p ∈ (F.feedAll c m).result, ∃ u, Packet.unpack p = some u ∧ u.cable = c) ∧ (F.feedAll c m).now.Clean := by
  obtain ⟨hquiet, hclean⟩ := CableFrame.settles_message (c := c) hm hF
  obtain ⟨hbytes, hcable⟩ := CableFrame.feedAll_conserves (CableFrame.inv_of_empty hF.1 c) hquiet
  rw [CableFrame.pending_of_empty hclean.1, CableFrame.pending_of_empty hF.1, List.append_nil] at hbytes
  exact ⟨hbytes, hcable, hclean⟩

end

/-! ### The messages received (R170) -/

/-- Given to `PC.RX_PACKET` in order, the packets return the messages, without an event if no SysEx exceeds the
capacity, and leave the buffer idle. -/
structure SysexBuffer.Delivers (S : SysexBuffer) (draw : Nat) (c : Cable) (packets : List Packet)
    (messages : List (List Byte)) : Prop where
  result : (S.rxAll draw packets).result = messages.map (delivered c)
  quiet : (∀ m ∈ messages, m.head? = some 0xF0 → m.length ≤ 2048) → (S.rxAll draw packets).events = []
  idle : (S.rxAll draw packets).now.Idle

section
variable {S : SysexBuffer} {draw : Nat} {c : Cable} {F : CableFrame}

theorem SysexBuffer.Delivers.append {ps qs : List Packet} {ms ns : List (List Byte)} (hps : S.Delivers draw c ps ms)
    (hqs : ∀ T : SysexBuffer, T.Idle → T.Delivers draw c qs ns) : S.Delivers draw c (ps ++ qs) (ms ++ ns) := by
  obtain ⟨hresult, hquiet, hidle⟩ := hps
  obtain ⟨hresult', hquiet', hidle'⟩ := hqs _ hidle
  constructor <;> rw [SysexBuffer.rxAll_append]
  · rw [hresult, hresult', List.map_append]
  · intro hfits
    obtain ⟨hms, hns⟩ := List.forall_mem_append.mp hfits
    exact List.append_eq_nil_iff.mpr ⟨hquiet hms, hquiet' hns⟩
  · exact hidle'

theorem SysexBuffer.delivers_short {p : Packet} {u : Unpacked} (hu : Packet.unpack p = some u) (hcin : IsShortCin u.cin)
    (hhead : u.bytes.head? ≠ some 0xF0) (hS : S.Idle) : S.Delivers draw u.cable [p] [u.bytes] := by
  have hrx : S.rxPacket draw p = ⟨S, some (.short u.cable u.bytes), []⟩ := by
    simp only [SysexBuffer.rxPacket, hu, Unpacked.isSysex_eq_false hu (.inl hcin),
      SysexBuffer.rxShort_idle draw u hS.length]
    rfl
  constructor <;> simp only [SysexBuffer.rxAll, hrx]
  · exact congrArg (fun m => [m]) (if_neg hhead).symm
  · exact fun _ => rfl
  · exact hS

theorem SysexBuffer.delivers_sysex {packets : List Packet} (hpackets : ∀ p ∈ packets, Packet.SysexOn c p)
    {body : List Byte} (hbody : ∀ b ∈ body, IsData b) (hbytes : packets.flatMap unpackedBytes = 0xF0 :: body ++ [0xF7])
    (hS : S.Idle) : S.Delivers draw c packets [0xF0 :: body ++ [0xF7]] := by
  obtain ⟨hfront, hheld, hquiet⟩ := hS.append_sysex (fun b hb => ne_of_isData (hbody b hb)) draw
  obtain ⟨hcomplete, hmessage, hdropped⟩ := hheld.append1_eox draw
  have heox := SysexBuffer.append_append hfront [0xF7]
  rw [SysexBuffer.append_singleton] at heox
  have hrx := SysexBuffer.rxAll_sysex hpackets hbytes hfront (by rw [heox]; exact hcomplete)
  rw [heox] at hrx
  constructor <;> rw [hrx]
  · simp only [hmessage, hdropped, delivered, List.map_cons, List.map_nil, List.length_append, List.length_singleton]
    rfl
  · intro hfits
    have hlen := hfits _ List.mem_cons_self rfl
    rw [List.length_append, List.length_singleton] at hlen
    exact List.append_eq_nil_iff.mpr ⟨hquiet (by omega), hheld.append1_eox_events draw⟩
  · exact SysexBuffer.idle_clear (SysexBuffer.append1_wf _ draw 0xF7 hheld.wf)

/-- The packets of a message deliver it. -/
theorem SysexBuffer.delivers_message {m : List Byte} (hm : MessageForm m) (hF : F.Clean) (hS : S.Idle) :
    S.Delivers draw c (F.feedAll c m).result [m] := by
  obtain ⟨hbytes, hcable, -⟩ := CableFrame.message_conserved (c := c) hm hF
  obtain ⟨cin, hcin, hshort⟩ | ⟨body, rfl, hbody⟩ := hm.short_or_sysex
  · obtain ⟨p, hp, rfl⟩ := CableFrame.feedAll_short (c := c) hF hshort
    rw [hp] at hbytes hcable ⊢
    obtain ⟨u, hu, rfl⟩ := hcable p List.mem_cons_self
    obtain ⟨-, hucin, hubytes, -⟩ := Packet.unpack_eq_some hu
    rw [List.flatMap_singleton, ← hubytes] at hbytes
    rw [← hbytes] at hshort ⊢
    exact SysexBuffer.delivers_short hu (hucin ▸ hcin) hshort.head?_ne hS
  · refine SysexBuffer.delivers_sysex (fun p hp => ?_) hbody hbytes hS
    obtain ⟨u, hu, hc⟩ := hcable p hp
    obtain ⟨-, hucin, -⟩ := Packet.unpack_eq_some hu
    have hfor := CableFrame.forSysex_of_feedAll_sysex hF hbody p hp
    exact ⟨u, hu, (Unpacked.isSysex_iff hu).mpr (hucin ▸ hfor), hc⟩

theorem SysexBuffer.delivers_messages {messages : List (List Byte)} (hm : ∀ m ∈ messages, MessageForm m) (hF : F.Clean)
    (hS : S.Idle) : S.Delivers draw c (F.feedAll c messages.flatten).result messages := by
  induction messages generalizing F S with
  | nil => exact ⟨rfl, fun _ => rfl, hS⟩
  | cons m messages ih =>
    obtain ⟨hfirst, hrest⟩ := List.forall_mem_cons.mp hm
    obtain ⟨-, -, hclean⟩ := CableFrame.message_conserved (c := c) hfirst hF
    rw [List.flatten_cons, CableFrame.feedAll_append]
    exact (SysexBuffer.delivers_message hfirst hF hS).append fun _ hT => ih hrest hclean hT

end

/-- Settles O40: the packets fed are all of cable `c`, and message by message they deliver what was fed. -/
theorem messageRoundTrip : Obligations.MessageRoundTrip := by
  intro s r c messages hm hfilled hsysex hlength hdropped hwf
  have hF : (s.cable c).Clean := ⟨hfilled, hsysex⟩
  obtain ⟨seen, t, hrun, hevents, hpackets, -⟩ := runOps_pcFeed c messages.flatten s
  obtain ⟨hquiet, -⟩ := CableFrame.settles_messages (c := c) hm hF
  obtain ⟨-, hcable⟩ := CableFrame.feedAll_conserves (CableFrame.inv_of_empty hfilled c) hquiet
  have hon : ∀ p ∈ packetsOf seen, Packet.cable p = c := fun p hp => by
    obtain ⟨u, hu, hc⟩ := hcable p (hpackets ▸ hp)
    obtain ⟨hucable, -⟩ := Packet.unpack_eq_some hu
    exact hucable.symm.trans hc
  obtain ⟨seen', u, hrun', hevents', hmessages, hnow⟩ := runOps_pcRxPacket hon r
  obtain ⟨hresult, hsilent, hidle⟩ : (r.sysex c).Delivers r.draws c (packetsOf seen) messages :=
    hpackets ▸ SysexBuffer.delivers_messages hm hF ⟨hlength, hdropped, hwf⟩
  refine ⟨seen, t, seen', u, hrun, hrun', hmessages.trans hresult, fun hfits => ?_, hnow ▸ hidle.length⟩
  exact List.forall_mem_append.mpr ⟨List.flatMap_eq_nil_iff.mp (hevents.trans hquiet),
    List.flatMap_eq_nil_iff.mp (hevents'.trans (hsilent hfits))⟩

end Sys2Proof.Machine

/-! PROOFS. The framer family: a frame written, a drain, the arms of `CF.RX_BYTE`, and receiving as the inverse of
encoding. -/

namespace Sys2Proof.Machine

/-! ### Whole frames received (R181) -/

/-- Settles O49: the bytes of one frame complete it (`State.completes_encodeFrame`), and a list of frames goes frame by
frame (`receive_wireBytes`). -/
theorem receiveInvertsEncode : Obligations.ReceiveInvertsEncode := by
  intro s hstate hwf
  constructor
  · intro header payload hlen
    obtain ⟨seen, t, hrun, hnone, hend, -⟩ := State.completes_encodeFrame header hlen hstate hwf
    exact ⟨seen, t, hrun, hnone, hend⟩
  · exact fun frames hlen => receive_wireBytes hlen hstate hwf

/-! ### Frames written and drained (R172 to R175) -/

/-- Settles O41: with room the frame enters whole, without it is dropped whole. -/
theorem writeCommand : Obligations.WriteCommand :=
  fun _ header _ hlen => ⟨State.writeCmd_fits header hlen, State.writeCmd_dropped header hlen⟩

/-- Settles O44: an instruction that sends a frame is `CF.WRITE_CMD` of it, which refuses what no frame can carry. -/
theorem longPayloadRefused : Obligations.LongPayloadRefused := by
  intro i s frame hsent hlong
  rw [exec_of_sentFrame hsent]
  obtain ⟨hshort, -⟩ | ⟨-, hrefused⟩ := s.writeCmd_cases frame.header frame.payload
  · omega
  · exact hrefused

/-- Settles O45: the queue is cut after `k` bytes, or after its last. -/
theorem drain : Obligations.Drain :=
  fun s k => ⟨s.txq.take k, s.txq.drop k, (List.take_append_drop k s.txq).symm, List.length_take, rfl⟩

/-! ### A byte received (R176 to R179) -/

/-- What the receive framer answers is all that `CF.RX_BYTE` does. -/
theorem exec_cfRxByte_of_receive {s : State} {b : Byte} {rx : RxFramer} {r : Option Frame}
    (h : s.rx.receive s.draws b = (rx, r)) :
    exec (.cfRxByte b) s = .next { s with rx := rx, result := .frame r, events := [] } :=
  calc exec (.cfRxByte b) s
    _ = .next (s.rxByte b) := rfl
    _ = .next { s with rx := rx, result := .frame r, events := [] } := by
      rw [State.rxByte, h, State.finish_no_events]

section
variable {rx : RxFramer} {draw : Nat} {b : Byte}

/-- Any byte is a header (R177). -/
theorem RxFramer.receive_of_hdr (h : rx.state = .hdr) :
    rx.receive draw b = ({ rx with header := b, state := .len }, none) := by
  simp [RxFramer.receive, h]

/-- Length 0 completes the frame (R178). -/
theorem RxFramer.receive_of_len_zero (h : rx.state = .len) :
    rx.receive draw 0 = ({ rx with len := 0, count := 0, state := .hdr }, some ⟨rx.header, []⟩) := by
  simp [RxFramer.receive, h]

/-- Any other length opens the payload (R178). -/
theorem RxFramer.receive_of_len_ne_zero (h : rx.state = .len) (hb : b ≠ 0) :
    rx.receive draw b = ({ rx with len := b, count := 0, state := .payload }, none) := by
  rw [RxFramer.receive, h]
  exact if_neg hb

/-- While `count` is below the length byte, the array has the index that a payload byte is stored at (R179). -/
theorem RxFramer.storeByte_eq_write (hlt : rx.count < rx.len) : rx.storeByte draw b =
    { rx with payload := Memory.write rx.payload rx.count.toNat b, count := rx.count + 1 } := by
  obtain ⟨-, hstored⟩ | ⟨hfull, -⟩ := rx.storeByte_cases draw b
  · exact hstored
  · bv_omega

/-- The payload byte that brings `count` to the length byte completes the frame (R179). -/
theorem RxFramer.receive_of_payload_last (h : rx.state = .payload) (hlt : rx.count < rx.len)
    (hlast : rx.count + 1 = rx.len) : rx.receive draw b =
      ({ rx with
          payload := Memory.write rx.payload rx.count.toNat b, count := rx.count + 1, state := .hdr },
        some ⟨rx.header, Memory.copy (Memory.write rx.payload rx.count.toNat b) rx.len.toNat⟩) := by
  simp only [RxFramer.receive, h, RxFramer.storeByte_eq_write hlt]
  exact if_pos hlast

/-- Any other payload byte is stored (R179). -/
theorem RxFramer.receive_of_payload_more (h : rx.state = .payload) (hlt : rx.count < rx.len)
    (hmore : rx.count + 1 ≠ rx.len) : rx.receive draw b =
      ({ rx with payload := Memory.write rx.payload rx.count.toNat b, count := rx.count + 1 }, none) := by
  simp only [RxFramer.receive, h, RxFramer.storeByte_eq_write hlt]
  exact if_neg hmore

end

/-- Settles O46, one arm of `CF.RX_BYTE` each. -/
theorem receiveHeaderAndLength : Obligations.ReceiveHeaderAndLength := by
  intro s b
  refine ⟨fun hhdr => ?_, fun hlen hb => ?_, fun hlen hb => ?_⟩
  · exact exec_cfRxByte_of_receive (RxFramer.receive_of_hdr hhdr)
  · rw [hb]
    exact exec_cfRxByte_of_receive (RxFramer.receive_of_len_zero hlen)
  · exact exec_cfRxByte_of_receive (RxFramer.receive_of_len_ne_zero hlen hb)

/-- Settles O47: the array is the old one written at `count`, which `Memory.read_write` reads; the two arms of R179 are
told apart by whether `count` reaches the length byte. -/
theorem receivePayloadByte : Obligations.ReceivePayloadByte := by
  intro s b hstate hlt hwf
  refine ⟨Memory.write s.rx.payload s.rx.count.toNat b, ?_, fun k hk => ?_, fun hlast => ?_, fun hmore => ?_⟩
  · rw [Memory.read_write hwf, if_pos rfl]
  · rw [Memory.read_write hwf, if_neg hk]
  · exact exec_cfRxByte_of_receive (RxFramer.receive_of_payload_last hstate hlt hlast)
  · exact exec_cfRxByte_of_receive (RxFramer.receive_of_payload_more hstate hlt hmore)

end Sys2Proof.Machine

/-! PROOFS. The exceptions family: a step without a request, and the table of the events. -/

namespace Sys2Proof.Machine

/-- With an empty inbox there is no request to take. -/
theorem State.fetch_of_nil {s : State} (h : s.inbox = []) : s.fetch = none := by
  obtain ⟨-, hfetch⟩ | ⟨r, rest, hcons, -⟩ := s.fetch_spec
  · exact hfetch
  · simp [h] at hcons

theorem step_of_fetch_none {s : State} (hfetch : s.fetch = none) : step s = .next s := by
  simp only [step, hfetch]

/-- Settles O7: an empty inbox gives the step no request, and `exec` is not reached. -/
theorem idleStepChangesNothing : Obligations.IdleStepChangesNothing :=
  fun _ hinbox => step_of_fetch_none (State.fetch_of_nil hinbox)

/-- Settles O53: a closed table of eleven rows, by evaluation; a kind's class is computed from the counter that R188 pairs
with it. -/
theorem eventTable : Obligations.EventTable := rfl

end Sys2Proof.Machine

/-! PROOFS. The reset family: the operation `RESET`. -/

namespace Sys2Proof.Machine

/-- `RESET` puts the block at rest and answers nothing (R201). -/
theorem exec_reset (s : State) : exec .reset s = .next (s.quiesce.finish .noResult []) := rfl

/-- Settles O10: the register files are read through `State.quiesce_cable` and `State.quiesce_sysex`, so the arrays
stand as `clear` leaves them; without events `finish` leaves the counters at zero. -/
theorem resetOperation : Obligations.ResetOperation := by
  intro s
  refine ⟨_, exec_reset s, fun c => ?cable, fun c => ?sysex, rfl, rfl, rfl, rfl, rfl, rfl, rfl, rfl⟩
  case cable =>
    rw [State.finish_cable, State.quiesce_cable]
    rfl
  case sysex =>
    rw [State.finish_sysex, State.quiesce_sysex]
    rfl

end Sys2Proof.Machine
